-- ==== Sys2Proof/Word.lean ====
section
/-! DEFINITION. The words of the U316 model, at the widths the manual gives.

What the manual computes exactly stays a plain number, so that arithmetic on it is exact:
an instant is a `Nat`, in whole nanoseconds from an origin outside the part (log entry 1);
a voltage is an `Int`, in whole nanovolts (log entry 2);
a conversion code is an `Int`, and R157 gives the 16-bit form it is sent in;
an interval or a count is a `Nat`, with its unit and its bounds in the field that holds it. -/

namespace Sys2Proof

/-- One byte of a frame, a reply, a record or an event (R157). -/
abbrev Byte := BitVec 8

/-- A 16-bit round number; 65,535 is followed by 0 (R27). -/
abbrev RoundNumber := BitVec 16

/-- An 8-bit demand or capture tag; 255 is followed by 0 (R69, R79). -/
abbrev Tag := BitVec 8

/-- An 8-bit epoch; 255 is followed by 0 (R130). -/
abbrev Epoch := BitVec 8

/-- One of the sixteen measured channels; channel n is input AINn (00_scope, section 5). -/
abbrev Channel := Fin 16

end Sys2Proof
end

