-- ==== Sys2Proof/Config.lean ====
section
/-! DEFINITION. What is fixed for a part, and the one thing the manual leaves to the world outside:
the voltages on the analog inputs. -/

namespace Sys2Proof.Config

/-- The voltage on AINn against ground at an instant. The world outside sets it and the manual fixes
no value, so it is a FREE VALUE: it has no body, and nothing can be proved of it (log entry 3). -/
opaque ainVoltage : Channel → Nat → Int

/-- The voltage on AMID against ground at an instant: free, as `ainVoltage` is (log entry 3). -/
opaque amidVoltage : Nat → Int

/-- The family code in the OPEN reply, 316 (8.2, Table 10-10). -/
def familyCode : Nat := 316

/-- The silicon revision number in the OPEN reply: 1 for the parts the manual describes (8.2). -/
def siliconRevision : Nat := 1

end Sys2Proof.Config
end

