-- ==== Sys2Proof/Syntax.lean ====
section
/-! DEFINITION. The commands of the U316: one constructor of `Instr` per row of
spec/opcode_table.json, and the enumerations the commands and the state share. -/

namespace Sys2Proof

/-- The three Host Ports; session A is the session of port A, and so on (8). -/
inductive Port where
  | A
  | B
  | C
  deriving DecidableEq, Repr

/-- The two trigger inputs (Table 0-2). -/
inductive TriggerLine where
  | trg0
  | trg1
  deriving DecidableEq, Repr

/-- A change of a trigger line: from low to high, or from high to low (R83). -/
inductive Edge where
  | rising
  | falling
  deriving DecidableEq, Repr

/-- Input ranges (Table 1-1). -/
inductive Range where
  | low
  | full
  | bipolar
  deriving DecidableEq, Repr

/-- Resolutions of 8, 10 and 12 bits (Table 1-1). -/
inductive Resolution where
  | bits8
  | bits10
  | bits12
  deriving DecidableEq, Repr

/-- Hold modes (Table 1-1). -/
inductive Hold where
  | hold
  | direct
  deriving DecidableEq, Repr

/-- Claim periods of 1, 2, 4, 8 and 16 rounds (Table 1-1). -/
inductive Period where
  | p1
  | p2
  | p4
  | p8
  | p16
  deriving DecidableEq, Repr

/-- Claim deliveries (Table 1-1). -/
inductive Delivery where
  | stream
  | tableOnly
  deriving DecidableEq, Repr

/-- What samples a capture (Table 5-1). -/
inductive Trigger where
  | immediate
  | line (line : TriggerLine) (edge : Edge)
  deriving DecidableEq, Repr

/-- Window states (Table 1-1). -/
inductive WindowState where
  | unknown
  | inside
  | above
  | below
  deriving DecidableEq, Repr

/--
The happenings the part takes, each whole (00_scope, section 5, "Time"): one constructor per row of
spec/opcode_table.json.

A request row (OPEN, CLAIM, …) is the happening in which the owner takes the request that the port's
request slot holds as EXECUTING (R150). Its fields came in with the frame at SELECT_RELEASE, so the row
names the port alone. `moment` is the moment the happening is taken, and stands where the effect depends on
the moment. The happenings of the part's own timers and of the Converter carry no moment: they come at
the moment the timer runs out, or at the conversion's end instant.
-/
inductive Instr where
  /-- SELECT_ASSERT (R141): the host asserts the port's select. -/
  | selectAssert (port : Port)
  /-- SELECT_RELEASE (R146): the host releases select. `sdi` holds the bits it shifted in during the
  selection, in order; as many bits were shifted out (9.2). -/
  | selectRelease (moment : Nat) (port : Port) (sdi : List Bool)
  /-- OPEN (R129). -/
  | openSession (moment : Nat) (port : Port)
  /-- CLOSE (R136). -/
  | closeSession (moment : Nat) (port : Port)
  /-- LINK_RESET (R137). -/
  | linkReset (moment : Nat) (port : Port)
  /-- STATUS (R45). -/
  | status (port : Port)
  /-- SET_PACE (R20). -/
  | setPace (port : Port)
  /-- CLAIM (R18). -/
  | claim (moment : Nat) (port : Port)
  /-- RELEASE (R19). -/
  | release (port : Port)
  /-- READ_NOW (R69). -/
  | readNow (moment : Nat) (port : Port)
  /-- CAPTURE (R79). -/
  | capture (moment : Nat) (port : Port)
  /-- CANCEL_CAPTURE (R91). -/
  | cancelCapture (moment : Nat) (port : Port)
  /-- GET_RESULTS (R105). -/
  | getResults (port : Port)
  /-- RESUME (R108). -/
  | resume (port : Port)
  /-- READ_TABLE (R99). -/
  | readTable (port : Port)
  /-- SET_WATERMARK (R110). -/
  | setWatermark (port : Port)
  /-- GET_EVENTS (R122). -/
  | getEvents (port : Port)
  /-- UNKNOWN_KIND (R161): the executing request's kind byte is no known code. -/
  | unknownKind (port : Port)
  /-- POWER_ON (R139). -/
  | powerOn
  /-- RSTN (R155): the assertion of the RSTN input. -/
  | rstn
  /-- PACING_TICK (R28): the pacing timer runs out. -/
  | pacingTick
  /-- CONVERSION_COMPLETE (R58): the end instant of the conversion in flight. -/
  | conversionComplete
  /-- TRIGGER_EDGE (R83): an edge on a trigger line. -/
  | triggerEdge (moment : Nat) (line : TriggerLine) (edge : Edge)
  /-- ARM_TIMEOUT (R84): the arm timer runs out. -/
  | armTimeout
  /-- LEASE_EXPIRY (R132): a session's lease timer runs out. -/
  | leaseExpiry (port : Port)
  /-- RSTN_RELEASE (R155): the release of the RSTN input. -/
  | rstnRelease
  /-- REPEAT_BAD_LENGTH (R149): the executing request is a REPEAT with a length other than 0. -/
  | repeatBadLength (port : Port)
  deriving DecidableEq, Repr

end Sys2Proof
end

