-- ==== Sys2Proof/Decode.lean ====
section
/-! DEFINITION. The commands that a table word spells. No row of spec/opcode_table.json gives its
command bits (its `fields` are empty throughout): the block's commands are happenings, and the bits
of a request travel on a port's data line, where `Machine/Link.lean` reads them (R142, R160). -/

namespace Sys2Proof

/-- The command a word spells by the table's bits: none, because no row gives bits. -/
def decodeTableWord (_nbits _w : Nat) : Option Instr :=
  none

end Sys2Proof
end

