-- ==== Sys2Proof/Machine/Maps.lean ====
section
/-! DEFINITION. The two finite maps the state is made of: one value per port, and one value per
channel. Both hold plain data, and equal maps are equal values. -/

namespace Sys2Proof.Machine

/-- One value for each port. -/
structure PerPort (α : Type) where
  a : α
  b : α
  c : α
  deriving DecidableEq, Repr

/-- The same value for every port. -/
def PerPort.const {α : Type} (x : α) : PerPort α :=
  ⟨x, x, x⟩

/-- The value of a port. -/
def PerPort.get {α : Type} (m : PerPort α) : Port → α
  | .A => m.a
  | .B => m.b
  | .C => m.c

/-- The map with one port's value replaced. -/
def PerPort.set {α : Type} (m : PerPort α) (p : Port) (x : α) : PerPort α :=
  match p with
  | .A => { m with a := x }
  | .B => { m with b := x }
  | .C => { m with c := x }

/-- Every value passed through a function that is told the port. -/
def PerPort.tabulate {α : Type} (f : Port → α) : PerPort α :=
  ⟨f .A, f .B, f .C⟩

/-- The ports in order. -/
def allPorts : List Port :=
  [.A, .B, .C]

/-- One value for each channel. -/
structure PerChannel (α : Type) where
  cells : Vector α 16
  deriving DecidableEq, Repr

/-- The map a function gives. -/
def PerChannel.tabulate {α : Type} (f : Channel → α) : PerChannel α :=
  ⟨Vector.ofFn f⟩

/-- The same value for every channel. -/
def PerChannel.const {α : Type} (x : α) : PerChannel α :=
  .tabulate fun _ => x

/-- The value of a channel. -/
def PerChannel.get {α : Type} (m : PerChannel α) (c : Channel) : α :=
  m.cells[c]

/-- The map with one channel's value replaced. -/
def PerChannel.set {α : Type} (m : PerChannel α) (c : Channel) (x : α) : PerChannel α :=
  ⟨m.cells.set c x⟩

/-- The channels in ascending order. -/
def allChannels : List Channel :=
  [0, 1, 2, 3, 4, 5, 6, 7, 8, 9, 10, 11, 12, 13, 14, 15]

end Sys2Proof.Machine
end

