-- ==== Sys2Proof/Machine/State.lean ====
section
/-! DEFINITION. Everything the manual gives the U316, block by block (Table 0-1), as plain data, and
the part right after power-on. Values that another part of the state fixes (channel profiles, the
effective round interval, the held-channel set, the flags and the alert lines) are computed from it,
in `Machine/Profiles.lean`, `Machine/Bank.lean` and `Machine/Flags.lean`, and not held twice. -/

namespace Sys2Proof.Machine

/-! ### Claim Table (chapter 1) -/

/-- Claim states (Table 1-1). -/
inductive ClaimState where
  | pending
  | active
  deriving DecidableEq, Repr

/-- A claim's window: bounds in its own code space, and a confirm count of 1–4 (Table 1-1). -/
structure Window where
  lower : Option Int
  upper : Option Int
  confirm : Nat
  deriving DecidableEq, Repr

/-- A classification waiting for confirmation, with its count (Table 1-1). -/
structure Candidate where
  state : WindowState
  count : Nat
  deriving DecidableEq, Repr

/-- The fields a claim takes from its CLAIM request (Table 1-1, upper group). -/
structure ClaimTerms where
  range : Range
  resolution : Resolution
  hold : Hold
  period : Period
  priority : Bool
  delivery : Delivery
  window : Option Window
  deriving DecidableEq, Repr

/-- A claim record (Table 1-1). Its session and channel are its place in `ClaimTable`. -/
structure Claim where
  terms : ClaimTerms
  state : ClaimState
  /-- 0–15, saturating (R55). -/
  gap : Nat
  windowState : WindowState
  candidate : Option Candidate
  deriving DecidableEq, Repr

/-- The claims: at most one per session and channel (R2). -/
structure ClaimTable where
  cells : PerPort (PerChannel (Option Claim))
  deriving DecidableEq, Repr

/-! ### Round Scheduler (chapter 2) -/

/-- A channel profile (R6). -/
structure Profile where
  range : Range
  resolution : Resolution
  hold : Hold
  period : Period
  priority : Bool
  deriving DecidableEq, Repr

/-- A plan entry: the profile at the last boundary, and the holder set (R26). -/
structure PlanEntry where
  profile : Profile
  holders : PerPort Bool
  deriving DecidableEq, Repr

/-- A plan slot: its channel, its index in the round's list and its plan profile (R38). -/
structure PlanSlot where
  channel : Channel
  index : Nat
  profile : Profile
  deriving DecidableEq, Repr

/-- Scheduler states (2.2). -/
inductive SchedulerState where
  | stopped
  | running
  | done
  | late
  deriving DecidableEq, Repr

/-- Round Scheduler state (Table 2-1). -/
structure Scheduler where
  state : SchedulerState
  plan : PerChannel (Option PlanEntry)
  /-- µs, or none. -/
  snapshotInterval : Option Nat
  nextRound : RoundNumber
  currentRound : Option RoundNumber
  slots : List PlanSlot
  slotPosition : Nat
  /-- none while stopped; else the instant at which it runs out (log entry 1). -/
  pacingTimer : Option Nat
  /-- 0–255, saturating. -/
  ticksLost : Nat
  startPending : Bool
  deriving DecidableEq, Repr

/-! ### Converter (chapter 3) -/

/-- What a piece of work is for, with the fields of Table 3-2 that belong to its kind. -/
inductive WorkKind where
  | plan (slotIndex : Nat)
  | demand (tag : Tag) (session : Port) (requesterGone : Bool)
  | capture (tag : Tag) (position : Nat)
  deriving DecidableEq, Repr

/-- A work record (Table 3-2). -/
structure Work where
  kind : WorkKind
  channel : Channel
  range : Range
  resolution : Resolution
  hold : Hold
  /-- the start instant. -/
  start : Nat
  /-- the end instant. -/
  finish : Nat
  deriving DecidableEq, Repr

/-- Converter state (Table 3-1): BUSY while there is work in flight, IDLE otherwise. -/
structure Converter where
  work : Option Work
  planMark : Bool
  deriving DecidableEq, Repr

/-! ### Demand Queue (chapter 4) -/

/-- A demand entry (Table 4-2). -/
structure Demand where
  tag : Tag
  session : Port
  channel : Channel
  range : Range
  resolution : Resolution
  hold : Hold
  deriving DecidableEq, Repr

/-- Demand Queue state (Table 4-1), oldest entry first. -/
structure DemandQueue where
  entries : List Demand
  nextTag : Tag
  deriving DecidableEq, Repr

/-! ### Capture Bank (chapter 5) -/

/-- One item of a capture's channel list (Table 5-1). -/
structure CaptureItem where
  channel : Channel
  range : Range
  deriving DecidableEq, Repr

/-- A capture entry (Table 5-1); the arm timeout is in ms and absent for IMMEDIATE. -/
structure Capture where
  tag : Tag
  session : Port
  items : List CaptureItem
  resolution : Resolution
  trigger : Trigger
  armTimeout : Option Nat
  deriving DecidableEq, Repr

/-- A value slot of the bank capture (Table 5-3), with the voltage its sample-and-hold stage keeps
(R82). It is taken when it has a start instant, and done when it has a code. -/
structure ValueSlot where
  /-- the voltage the stage keeps. -/
  stage : Int
  /-- the start instant, if taken. -/
  start : Option Nat
  droop : Bool
  /-- the code and its CLIP flag. -/
  result : Option (Int × Bool)
  deriving DecidableEq, Repr

/-- The bank by its state (Table 5-3 and the table of bank states under it): FREE holds nothing; ARMED
holds the capture and its running arm timer (the instant it runs out); HOLDING holds the capture, the
cancelled mark, the sample instant and the value slots. -/
inductive Bank where
  | free
  | armed (capture : Capture) (armTimer : Nat)
  | holding (capture : Capture) (cancelled : Bool) (sampled : Nat) (values : List ValueSlot)
  deriving DecidableEq, Repr

/-- Capture Bank state (Tables 5-1 and 5-3), head of the list first. -/
structure CaptureBank where
  list : List Capture
  bank : Bank
  /-- 0–255, saturating. -/
  extraEdges : Nat
  nextTag : Tag
  lastFinished : PerPort (Option Tag)
  deriving DecidableEq, Repr

/-! ### Result Store (chapter 6) -/

/-- What produced a table value (Table 6-1). -/
inductive Source where
  | plan
  | demand
  deriving DecidableEq, Repr

/-- A result-table entry (Table 6-1). -/
structure TableEntry where
  valid : Bool
  /-- a code at the entry's resolution. -/
  value : Int
  resolution : Resolution
  round : RoundNumber
  source : Source
  stale : Bool
  clip : Bool
  deriving DecidableEq, Repr

/-- One value of a CAPTURE record (Table 5-4). -/
structure CaptureValue where
  channel : Channel
  value : Int
  droop : Bool
  clip : Bool
  deriving DecidableEq, Repr

/-- The three record kinds and their contents (Table 6-4). -/
inductive Record where
  | plan (channel : Channel) (value : Int) (resolution : Resolution) (round : RoundNumber)
      (slotIndex : Nat) (gap : Nat) (priority : Bool) (clip : Bool)
  | demand (tag : Tag) (channel : Channel) (value : Int) (resolution : Resolution)
      (round : RoundNumber) (clip : Bool)
  | capture (tag : Tag) (trigger : Trigger) (round : RoundNumber) (extraEdges : Nat)
      (values : List CaptureValue)
  deriving DecidableEq, Repr

/-- A session's result queue (Table 6-3), oldest record first. -/
structure ResultQueue where
  records : List Record
  lapsed : Bool
  /-- 0–65,535, saturating. -/
  lost : Nat
  /-- 1–32. -/
  watermark : Nat
  deriving DecidableEq, Repr

/-! ### Event Queues (chapter 7) -/

/-- The five event kinds and their fields (Table 7-2). -/
inductive Event where
  | window (channel : Channel) (old new : WindowState) (value : Int) (round : RoundNumber)
  | roundSlip (round : RoundNumber) (ticksLost : Nat)
  | captureTimeout (tag : Tag)
  | profileChanged (channel : Channel) (resolution : Resolution) (hold : Hold) (period : Period)
      (priority : Bool)
  | paceChanged (interval : Nat)
  deriving DecidableEq, Repr

/-- A session's event queue (Table 7-1), oldest event first. -/
structure EventQueue where
  events : List Event
  /-- the event-lost mark. -/
  lost : Bool
  deriving DecidableEq, Repr

/-! ### Session Table (chapter 8) -/

/-- A session record (Table 8-1). -/
structure Session where
  isOpen : Bool
  epoch : Epoch
  /-- µs. -/
  pace : Option Nat
  /-- ms. -/
  lease : Option Nat
  /-- none while stopped; else the instant at which it runs out (log entry 1). -/
  leaseTimer : Option Nat
  expired : Bool
  resetSeen : Bool
  deriving DecidableEq, Repr

/-! ### Host Ports (chapter 9) -/

/-- A complete request frame (Table 10-2): its length byte is the number of payload bytes. -/
structure Frame where
  kind : Byte
  sequence : Byte
  payload : List Byte
  crc : BitVec 16
  deriving DecidableEq, Repr

/-- A reply frame (Table 10-2): its length byte is the number of payload bytes, and its CRC is a
function of the other fields. -/
structure Reply where
  kind : Byte
  sequence : Byte
  status : Byte
  payload : List Byte
  deriving DecidableEq, Repr

/-- The remembered frame: kind, sequence 0–15 and CRC (Table 9-1). -/
structure Remembered where
  kind : Byte
  sequence : BitVec 4
  crc : BitVec 16
  deriving DecidableEq, Repr

/-- A selection under way, with what it fixed at its beginning (Table 9-1, R141). -/
structure Selection where
  status : Byte
  replyShown : Bool
  deriving DecidableEq, Repr

/-- Host Port state (Table 9-1). The request slot is EXECUTING while it holds a frame, the reply slot
READY while it holds a reply. -/
structure HostPort where
  request : Option Frame
  reply : Option Reply
  lastReply : Option Reply
  memory : Option Remembered
  dropped : Bool
  selection : Option Selection
  deriving DecidableEq, Repr

/-! ### The world outside (the model's own) -/

/-- A level the world outside has put on an analog input from an instant on: AINn where a channel is
named, AMID where none is. -/
structure AnalogLevel where
  pin : Option Channel
  /-- the instant it holds from. -/
  since : Nat
  /-- the voltage. -/
  level : Int
  deriving DecidableEq, Repr

/-- The whole part, block by block (Table 0-1), with the level of RSTN, the analog levels the world
outside has named, and the commands that wait. -/
structure State where
  claims : ClaimTable
  sched : Scheduler
  conv : Converter
  demand : DemandQueue
  capture : CaptureBank
  table : PerChannel TableEntry
  results : PerPort ResultQueue
  events : PerPort EventQueue
  sessions : PerPort Session
  ports : PerPort HostPort
  /-- RSTN is held asserted (R155). -/
  rstnAsserted : Bool
  /-- THE MODEL'S OWN: analog levels named by the world outside, newest first (log entry 3). -/
  analog : List AnalogLevel
  /-- THE MODEL'S OWN: the commands that wait, first in, first out. -/
  pending : List Instr
  deriving DecidableEq, Repr

/-- Why the part stops: never. The manual gives every happening an effect in every state, so this type
has no constructor and no meaning raises a fault. -/
inductive Fault where
  deriving DecidableEq, Repr

/-- Why a command has no meaning. -/
inductive Refusal where
  /-- Raised by an arm of `exec` whose command has no meaning yet; none is left. Safe: nothing is claimed
  of the command. -/
  | notModelled (mnemonic : String)
  deriving DecidableEq, Repr

/-! ### After power-on -/

/-- An empty Claim Table (R24). -/
def ClaimTable.empty : ClaimTable :=
  ⟨.const (.const none)⟩

/-- The Round Scheduler after reset (R47). -/
def Scheduler.reset : Scheduler where
  state := .stopped
  plan := .const none
  snapshotInterval := none
  nextRound := 0
  currentRound := none
  slots := []
  slotPosition := 0
  pacingTimer := none
  ticksLost := 0
  startPending := false

/-- The Converter after reset (R66). -/
def Converter.reset : Converter where
  work := none
  planMark := false

/-- The Demand Queue after reset (R76). -/
def DemandQueue.reset : DemandQueue where
  entries := []
  nextTag := 0

/-- The Capture Bank after reset (R96). -/
def CaptureBank.reset : CaptureBank where
  list := []
  bank := .free
  extraEdges := 0
  nextTag := 0
  lastFinished := .const none

/-- A result-table entry after reset (Table 6-2). -/
def TableEntry.reset : TableEntry where
  valid := false
  value := 0
  resolution := .bits8
  round := 0
  source := .plan
  stale := false
  clip := false

/-- A result queue after reset (R113). -/
def ResultQueue.reset : ResultQueue where
  records := []
  lapsed := false
  lost := 0
  watermark := 16

/-- An event queue after reset (R127). -/
def EventQueue.reset : EventQueue where
  events := []
  lost := false

/-- A session record after a reset that leaves the given epoch (R139). -/
def Session.reset (epoch : Epoch) : Session where
  isOpen := false
  epoch := epoch
  pace := none
  lease := none
  leaseTimer := none
  expired := false
  resetSeen := true

/-- A Host Port after reset (R155). -/
def HostPort.reset : HostPort where
  request := none
  reply := none
  lastReply := none
  memory := none
  dropped := false
  selection := none

/-- The part right after power-on, with RSTN released, no analog level named and no command waiting
(log entry 5). -/
def State.reset : State where
  claims := .empty
  sched := .reset
  conv := .reset
  demand := .reset
  capture := .reset
  table := .const .reset
  results := .const .reset
  events := .const .reset
  sessions := .const (.reset 0)
  ports := .const .reset
  rstnAsserted := false
  analog := []
  pending := []

end Sys2Proof.Machine
end

