-- ==== Sys2Proof/Machine/Ops.lean ====
section
/-! DEFINITION. The named operations every block is written over: replacing one part of the state,
reading the analog inputs, appending a record (R103) and appending an event (R120). -/

namespace Sys2Proof.Machine

/-! ### Replacing one part of the state -/

/-- The state with the Claim Table replaced. -/
def State.setClaims (s : State) (x : ClaimTable) : State := { s with claims := x }

/-- The state with the Round Scheduler replaced. -/
def State.setSched (s : State) (x : Scheduler) : State := { s with sched := x }

/-- The state with the Converter replaced. -/
def State.setConv (s : State) (x : Converter) : State := { s with conv := x }

/-- The state with the Demand Queue replaced. -/
def State.setDemand (s : State) (x : DemandQueue) : State := { s with demand := x }

/-- The state with the Capture Bank replaced. -/
def State.setCapture (s : State) (x : CaptureBank) : State := { s with capture := x }

/-- The state with the result table replaced. -/
def State.setTable (s : State) (x : PerChannel TableEntry) : State := { s with table := x }

/-- The state with one session's result queue replaced. -/
def State.setResults (s : State) (p : Port) (x : ResultQueue) : State :=
  { s with results := s.results.set p x }

/-- The state with one session's event queue replaced. -/
def State.setEvents (s : State) (p : Port) (x : EventQueue) : State :=
  { s with events := s.events.set p x }

/-- The state with one session record replaced. -/
def State.setSession (s : State) (p : Port) (x : Session) : State :=
  { s with sessions := s.sessions.set p x }

/-- The state with one Host Port replaced. -/
def State.setPort (s : State) (p : Port) (x : HostPort) : State :=
  { s with ports := s.ports.set p x }

/-- A session's result queue. -/
def State.resultsOf (s : State) (p : Port) : ResultQueue := s.results.get p

/-- A session's event queue. -/
def State.eventsOf (s : State) (p : Port) : EventQueue := s.events.get p

/-- A port's session record. -/
def State.sessionOf (s : State) (p : Port) : Session := s.sessions.get p

/-- A Host Port. -/
def State.portOf (s : State) (p : Port) : HostPort := s.ports.get p

/-! ### The Claim Table's cells (R2) -/

/-- The claim of a session on a channel. -/
def ClaimTable.get (ct : ClaimTable) (p : Port) (c : Channel) : Option Claim :=
  (ct.cells.get p).get c

/-- The table with one cell replaced. -/
def ClaimTable.set (ct : ClaimTable) (p : Port) (c : Channel) (x : Option Claim) : ClaimTable :=
  ⟨ct.cells.set p ((ct.cells.get p).set c x)⟩

/-- The table a function of session, channel and claim makes of this one. -/
def ClaimTable.mapCells (ct : ClaimTable) (f : Port → Channel → Option Claim → Option Claim) :
    ClaimTable :=
  ⟨.tabulate fun p => .tabulate fun c => f p c (ct.get p c)⟩

/-- The claim of a session on a channel, in the state. -/
def State.claimOf (s : State) (p : Port) (c : Channel) : Option Claim :=
  s.claims.get p c

/-! ### Intervals -/

/-- Nanoseconds of an interval in µs. -/
def ofMicros (us : Nat) : Nat := us * 1000

/-- Nanoseconds of an interval in ms. -/
def ofMillis (ms : Nat) : Nat := ms * 1000000

/-! ### Numbers behind the enumerations (Table 10-1) -/

/-- The number of bits of a resolution. -/
def resolutionBits : Resolution → Nat
  | .bits8 => 8
  | .bits10 => 10
  | .bits12 => 12

/-- The number of rounds of a period. -/
def periodRounds : Period → Nat
  | .p1 => 1
  | .p2 => 2
  | .p4 => 4
  | .p8 => 8
  | .p16 => 16

/-! ### The analog inputs (R57) -/

/-- The latest level the world outside has named for a pin at or before an instant. -/
def namedLevel (levels : List AnalogLevel) (pin : Option Channel) (t : Nat) : Option Int :=
  (levels.find? fun l => l.pin == pin && decide (l.since ≤ t)).map (·.level)

/-- The voltage on AINn at an instant: the level named for it, or else a free value. -/
def State.ain (s : State) (c : Channel) (t : Nat) : Int :=
  (namedLevel s.analog (some c) t).getD (Config.ainVoltage c t)

/-- The voltage on AMID at an instant: the level named for it, or else a free value. -/
def State.amid (s : State) (t : Nat) : Int :=
  (namedLevel s.analog none t).getD (Config.amidVoltage t)

/-- The input of a channel as a range measures it: against ground for LOW and FULL, against AMID for
BIPOLAR (R57, R82). -/
def State.measure (s : State) (c : Channel) (r : Range) (t : Nat) : Int :=
  match r with
  | .low => s.ain c t
  | .full => s.ain c t
  | .bipolar => s.ain c t - s.amid t

/-! ### Records and events -/

/-- A result queue holds at most 32 records (R101). -/
def maxRecords : Nat := 32

/-- The lost count saturates at 65,535 (Table 6-3). -/
def maxLost : Nat := 65535

/-- A record handed to a result queue: appended, or discarded and counted (R103). -/
def ResultQueue.handRecord (q : ResultQueue) (r : Record) : ResultQueue :=
  if q.lapsed then
    { q with lost := min (q.lost + 1) maxLost }
  else if q.records.length < maxRecords then
    { q with records := q.records ++ [r] }
  else
    { q with lapsed := true, lost := 1 }

/-- Whether a result queue appends the next record it is handed (R103). -/
def ResultQueue.accepts (q : ResultQueue) : Bool :=
  !q.lapsed && decide (q.records.length < maxRecords)

/-- A record handed to the Result Store for a session (R103). -/
def State.handRecord (s : State) (p : Port) (r : Record) : State :=
  s.setResults p ((s.resultsOf p).handRecord r)

/-- An event queue holds at most 8 events (R120). -/
def maxEvents : Nat := 8

/-- An event appended to an event queue; a full queue loses its oldest event and sets the event-lost
mark (R120). -/
def EventQueue.append (q : EventQueue) (e : Event) : EventQueue :=
  if q.events.length < maxEvents then
    { q with events := q.events ++ [e] }
  else
    { events := q.events.drop 1 ++ [e], lost := true }

/-- An event handed to the Event Queues for a session (R120). -/
def State.handEvent (s : State) (p : Port) (e : Event) : State :=
  s.setEvents p ((s.eventsOf p).append e)

/-- Events handed in the producer's order (R120). -/
def State.handEvents (s : State) : List (Port × Event) → State
  | [] => s
  | (p, e) :: rest => (s.handEvent p e).handEvents rest

/-- The round that records and table entries carry: the current round, or 0 for none (R27). -/
def State.roundNow (s : State) : RoundNumber :=
  s.sched.currentRound.getD 0

end Sys2Proof.Machine
end

