-- ==== Sys2Proof/Machine/Profiles.lean ====
section
/-! DEFINITION. The Claim Table's arithmetic (chapter 1): code spaces, profiles, cost, load, reserve,
budget and the effective round interval. Each is computed from the claims and the session records. -/

namespace Sys2Proof.Machine

/-- The lowest code of a range and resolution (R1). -/
def codeMin (r : Range) (res : Resolution) : Int :=
  match r with
  | .low => 0
  | .full => 0
  | .bipolar => -(2 ^ (resolutionBits res - 1))

/-- The highest code of a range and resolution (R1). -/
def codeMax (r : Range) (res : Resolution) : Int :=
  match r with
  | .low => 2 ^ resolutionBits res - 1
  | .full => 2 ^ resolutionBits res - 1
  | .bipolar => 2 ^ (resolutionBits res - 1) - 1

/-- Whether a code lies in the code space of a range and resolution (R1). -/
def inCodeSpace (r : Range) (res : Resolution) (x : Int) : Bool :=
  decide (codeMin r res ≤ x) && decide (x ≤ codeMax r res)

/-- Conversion cost in ns (Table 1-3, R9). -/
def cost (res : Resolution) (h : Hold) : Nat :=
  match res, h with
  | .bits8, .hold => 1200
  | .bits8, .direct => 2000
  | .bits10, .hold => 1500
  | .bits10, .direct => 2400
  | .bits12, .hold => 2100
  | .bits12, .direct => 3300

/-- The cost of a profile (R9). -/
def Profile.cost (f : Profile) : Nat :=
  Machine.cost f.resolution f.hold

/-- The cost of a claim (R9). -/
def Claim.cost (cl : Claim) : Nat :=
  Machine.cost cl.terms.resolution cl.terms.hold

/-- The claims on a channel, of all sessions. -/
def ClaimTable.onChannel (ct : ClaimTable) (c : Channel) : List Claim :=
  allPorts.filterMap fun p => ct.get p c

/-- The higher of two resolutions. -/
def maxResolution (x y : Resolution) : Resolution :=
  if resolutionBits x < resolutionBits y then y else x

/-- The smaller of two periods. -/
def minPeriod (x y : Period) : Period :=
  if periodRounds y < periodRounds x then y else x

/-- HOLD if either asks HOLD. -/
def mergeHold : Hold → Hold → Hold
  | .hold, _ => .hold
  | .direct, h => h

/-- The profile of one claim alone. -/
def Claim.profile (cl : Claim) : Profile where
  range := cl.terms.range
  resolution := cl.terms.resolution
  hold := cl.terms.hold
  period := cl.terms.period
  priority := cl.terms.priority

/-- One more claim merged into a profile (R6). -/
def Profile.merge (f : Profile) (cl : Claim) : Profile where
  range := f.range
  resolution := maxResolution f.resolution cl.terms.resolution
  hold := mergeHold f.hold cl.terms.hold
  period := minPeriod f.period cl.terms.period
  priority := f.priority || cl.terms.priority

/-- The profile merged from the claims on a channel; none for a free channel (R6). -/
def mergeProfile : List Claim → Option Profile
  | [] => none
  | cl :: rest => some (rest.foldl Profile.merge cl.profile)

/-- A channel's profile in a Claim Table (R6). -/
def ClaimTable.profile (ct : ClaimTable) (c : Channel) : Option Profile :=
  mergeProfile (ct.onChannel c)

/-- The current profile of a channel (R8). -/
def State.profile (s : State) (c : Channel) : Option Profile :=
  s.claims.profile c

/-- Whether a channel is a priority channel in a Claim Table (R6). -/
def ClaimTable.isPriority (ct : ClaimTable) (c : Channel) : Bool :=
  match ct.profile c with
  | some f => f.priority
  | none => false

/-- Whether a channel is a normal channel in a Claim Table (R6). -/
def ClaimTable.isNormal (ct : ClaimTable) (c : Channel) : Bool :=
  match ct.profile c with
  | some f => !f.priority
  | none => false

/-- The sum of a weight over the channels a test picks. -/
def sumOver (pick : Channel → Bool) (weight : Channel → Nat) : Nat :=
  ((allChannels.filter pick).map weight).sum

/-- The cost of a channel's profile; 0 when free. -/
def ClaimTable.profileCost (ct : ClaimTable) (c : Channel) : Nat :=
  match ct.profile c with
  | some f => f.cost
  | none => 0

/-- The load: S + max(1, N) × Q (R10). -/
def ClaimTable.load (ct : ClaimTable) : Nat :=
  let n := (allChannels.filter ct.isNormal).length
  sumOver ct.isNormal ct.profileCost + max 1 n * sumOver ct.isPriority ct.profileCost

/-- The worst cost of a channel: the greatest cost among its claims (R11). -/
def ClaimTable.worstCost (ct : ClaimTable) (c : Channel) : Nat :=
  ((ct.onChannel c).map Claim.cost).foldl max 0

/-- Whether a channel has a claim. -/
def ClaimTable.isClaimed (ct : ClaimTable) (c : Channel) : Bool :=
  !(ct.onChannel c).isEmpty

/-- The reserve: U + max(1, M) × V (R11). -/
def ClaimTable.reserve (ct : ClaimTable) : Nat :=
  let m := (allChannels.filter ct.isClaimed).length
  sumOver ct.isNormal ct.worstCost + max 1 m * sumOver ct.isPriority ct.worstCost

/-- The budget of an interval in µs: 875 ns for each µs (R12). -/
def budget (interval : Nat) : Nat :=
  interval * 875

/-- Whether a session holds at least one claim. -/
def ClaimTable.holdsClaim (ct : ClaimTable) (p : Port) : Bool :=
  allChannels.any fun c => (ct.get p c).isSome

/-- Whether the table holds no claim. -/
def ClaimTable.isEmpty (ct : ClaimTable) : Bool :=
  !(allPorts.any ct.holdsClaim)

/-- The smaller of two intervals, either of which may be missing. -/
def minInterval : Option Nat → Option Nat → Option Nat
  | none, y => y
  | some x, none => some x
  | some x, some y => some (min x y)

/-- The pace a session brings to the interval: its own, if it is open and holds a claim (R13). -/
def paceOf (sessions : PerPort Session) (ct : ClaimTable) (p : Port) : Option Nat :=
  if (sessions.get p).isOpen && ct.holdsClaim p then (sessions.get p).pace else none

/-- The smallest pace among open sessions that hold at least one claim (R13), for any session records
and claims: the candidate interval of R16 is this over the candidate table. -/
def intervalOf (sessions : PerPort Session) (ct : ClaimTable) : Option Nat :=
  minInterval (paceOf sessions ct .A) (minInterval (paceOf sessions ct .B) (paceOf sessions ct .C))

/-- The effective round interval in µs, or none (R13). -/
def State.effectiveInterval (s : State) : Option Nat :=
  intervalOf s.sessions s.claims

/-- Whether a reserve is within the budget of an interval; no interval has no budget (R12, R17). -/
def withinBudget (reserve : Nat) (interval : Option Nat) : Bool :=
  match interval with
  | some i => decide (reserve ≤ budget i)
  | none => false

/-- The channels with a priority claim, counted (R17). -/
def ClaimTable.priorityChannels (ct : ClaimTable) : Nat :=
  (allChannels.filter ct.isPriority).length

end Sys2Proof.Machine
end

