-- ==== Sys2Proof/Machine/Bank.lean ====
section
/-! DEFINITION. The Capture Bank (chapter 5): taking the head of the list, sampling, the held-channel
set, the offer, cancelling, and what a capture conversion's completion does. -/

namespace Sys2Proof.Machine

/-- The channels of a capture. -/
def Capture.channels (cp : Capture) : List Channel :=
  cp.items.map (·.channel)

/-- The held-channel set: the bank capture's channels while HOLDING, else empty (R86). -/
def Bank.heldChannels : Bank → List Channel
  | .free => []
  | .armed _ _ => []
  | .holding cp _ _ _ => cp.channels

/-- Whether a channel is in the held-channel set (R86). -/
def State.isHeld (s : State) (c : Channel) : Bool :=
  s.capture.bank.heldChannels.contains c

/-- A value slot not taken and not done, its stage holding the voltage of the sample instant (R81, R82). -/
def State.freshValue (s : State) (t : Nat) (it : CaptureItem) : ValueSlot where
  stage := s.measure it.channel it.range t
  start := none
  droop := false
  result := none

/-- Sampling a capture at an instant (R82). -/
def State.sample (s : State) (cp : Capture) (t : Nat) : State :=
  s.setCapture { s.capture with bank := .holding cp false t (cp.items.map (s.freshValue t)) }

/-- A capture taken into the bank at an instant: sampled if IMMEDIATE, else ARMED with its timer loaded
(R81). -/
def State.takeIntoBank (s : State) (cp : Capture) (t : Nat) : State :=
  match cp.trigger with
  | .immediate => (s.setCapture { s.capture with extraEdges := 0 }).sample cp t
  | .line _ _ =>
    s.setCapture
      { s.capture with
        extraEdges := 0
        bank := .armed cp (t + ofMillis (cp.armTimeout.getD 0)) }

/-- A FREE bank takes the head of a non-empty list (R81). -/
def State.takeHead (s : State) (t : Nat) : State :=
  match s.capture.bank, s.capture.list with
  | .free, cp :: _ => s.takeIntoBank cp t
  | _, _ => s

/-- The bank becomes FREE and takes the next head at once (R81). -/
def State.freeBank (s : State) (t : Nat) : State :=
  (s.setCapture { s.capture with bank := .free }).takeHead t

/-- The list without the capture of a session, which has at most one there (R77). -/
def CaptureBank.without (b : CaptureBank) (p : Port) : CaptureBank :=
  { b with list := b.list.filter fun cp => cp.session != p }

/-- The session's capture in the list, if it has one (R77). -/
def CaptureBank.captureOf (b : CaptureBank) (p : Port) : Option Capture :=
  b.list.find? fun cp => decide (cp.session = p)

/-- Whether an edge matches a trigger (R83). -/
def edgeMatches (tr : Trigger) (l : TriggerLine) (e : Edge) : Bool :=
  match tr with
  | .immediate => false
  | .line l' e' => decide (l' = l) && decide (e' = e)

/-! ### The offer -/

/-- The first item, counted from a position on, whose value slot is not taken (R87). -/
def firstUntaken : Nat → List CaptureItem → List ValueSlot → Option (Nat × CaptureItem)
  | pos, it :: items, v :: values =>
    if v.start.isNone then some (pos, it) else firstUntaken (pos + 1) items values
  | _, _, _ => none

/-- The bank's offer: the bank capture with the position and item to convert next (R49, R87). -/
def Bank.offer : Bank → Option (Capture × Nat × CaptureItem)
  | .free => none
  | .armed _ _ => none
  | .holding cp cancelled _ values =>
    if cancelled then none else (firstUntaken 0 cp.items values).map fun x => (cp, x.1, x.2)

/-- The DROOP threshold, 250 µs (R88). -/
def droopThreshold : Nat := 250000

/-- Whether a conversion that starts at `start` of a capture sampled at `sampled` carries DROOP (R88). -/
def isDroop (sampled start : Nat) : Bool :=
  decide (sampled + droopThreshold < start)

/-- A value slot taken at an instant, with its DROOP judged (R87, R88). -/
def ValueSlot.take (v : ValueSlot) (sampled start : Nat) : ValueSlot :=
  { v with start := some start, droop := isDroop sampled start }

/-- The bank with the slot at a position marked taken (R87). -/
def Bank.takeValue (b : Bank) (pos : Nat) (t : Nat) : Bank :=
  match b with
  | .free => .free
  | .armed cp timer => .armed cp timer
  | .holding cp cancelled sampled values =>
    .holding cp cancelled sampled (values.modify pos fun v => v.take sampled t)

/-! ### Completion of a capture conversion -/

/-- A value slot marked done with its code and CLIP flag (R89). -/
def ValueSlot.finish (v : ValueSlot) (code : Int) (clip : Bool) : ValueSlot :=
  { v with result := some (code, clip) }

/-- The value of a done slot in a CAPTURE record (Table 5-4). -/
def captureValue (it : CaptureItem) (v : ValueSlot) : CaptureValue where
  channel := it.channel
  value := (v.result.getD (0, false)).1
  droop := v.droop
  clip := (v.result.getD (0, false)).2

/-- The CAPTURE record of a capture whose values are done (Table 5-4). -/
def captureRecord (cp : Capture) (r : RoundNumber) (extra : Nat) (values : List ValueSlot) : Record :=
  .capture cp.tag cp.trigger r extra (List.zipWith captureValue cp.items values)

/-- The completion of a capture: record, removal, last finished tag, free bank, next head (R90). -/
def State.completeCapture (s : State) (cp : Capture) (values : List ValueSlot) (t : Nat) : State :=
  let s₁ := s.handRecord cp.session (captureRecord cp s.roundNow s.capture.extraEdges values)
  (s₁.setCapture
    { s.capture.without cp.session with
      lastFinished := s.capture.lastFinished.set cp.session (some cp.tag) }).freeBank t

/-- What the bank does with the result of a capture conversion (R89, R92). -/
def State.receiveCaptureValue (s : State) (pos : Nat) (code : Int) (clip : Bool) (t : Nat) :
    State :=
  match s.capture.bank with
  | .free => s
  | .armed _ _ => s
  | .holding cp cancelled sampled values =>
    if cancelled then s.freeBank t
    else
      let values' := values.modify pos fun v => v.finish code clip
      if values'.all fun v => v.result.isSome then s.completeCapture cp values' t
      else s.setCapture { s.capture with bank := .holding cp false sampled values' }

/-! ### Cancelling -/

/-- Whether a conversion of the capture with a tag is in flight (R91). -/
def State.captureInFlight (s : State) (tag : Tag) : Bool :=
  match s.conv.work with
  | some w =>
    match w.kind with
    | .capture tag' _ => decide (tag' = tag)
    | .plan _ => false
    | .demand _ _ _ => false
  | none => false

/-- A value slot of a cancelled capture: its stored value is dropped (R91). -/
def ValueSlot.drop (v : ValueSlot) : ValueSlot :=
  { v with result := none }

/-- The cancelling of a session's capture that is in the list, according to where it stands (R91, R94).
A cancelled bank capture has left the list already, so it is not the one meant. -/
def State.cancel (s : State) (p : Port) (t : Nat) : State :=
  let s₁ := s.setCapture (s.capture.without p)
  match s.capture.bank with
  | .free => s₁
  | .armed cp _ => if cp.session = p then s₁.freeBank t else s₁
  | .holding cp cancelled sampled values =>
    if cancelled then s₁
    else if cp.session = p then
      if s.captureInFlight cp.tag then
        s₁.setCapture
          { s.capture.without p with
            bank := .holding cp true sampled (values.map ValueSlot.drop) }
      else s₁.freeBank t
    else s₁

end Sys2Proof.Machine
end

