-- ==== Sys2Proof/Machine/Plan.lean ====
section
/-! DEFINITION. The Round Scheduler (chapter 2): which channels and claims are due, the slot list, the
round boundary in its steps, and the finishing of a round's last slot. -/

namespace Sys2Proof.Machine

/-! ### Due channels and claims, and the slot list -/

/-- Whether a round is one of a channel's under a period: phase is the channel number modulo the
period (R36). -/
def dueInRound (period : Period) (c : Channel) (r : RoundNumber) : Bool :=
  r.toNat % periodRounds period == c.val % periodRounds period

/-- Whether a channel with this plan profile is due in a round (R36). -/
def Profile.due (f : Profile) (c : Channel) (r : RoundNumber) : Bool :=
  f.priority || dueInRound f.period c r

/-- Whether a claim is due in a round (R37). -/
def Claim.due (cl : Claim) (c : Channel) (r : RoundNumber) : Bool :=
  cl.terms.priority || dueInRound cl.terms.period c r

/-- Whether a claim receives a conversion of its channel in a round: ACTIVE and due (R5, R63). -/
def Claim.receives (cl : Claim) (c : Channel) (r : RoundNumber) : Bool :=
  decide (cl.state = .active) && cl.due c r

/-- The active plan: for each channel absent, or an entry (R26). -/
abbrev Plan := PerChannel (Option PlanEntry)

/-- The channels of the plan that a test on channel and profile picks, ascending, with profiles. -/
def planChannels (plan : Plan) (pick : Channel → Profile → Bool) : List (Channel × Profile) :=
  allChannels.filterMap fun c =>
    match plan.get c with
    | some e => if pick c e.profile then some (c, e.profile) else none
    | none => none

/-- The order of a round's slots, from the due normal channels and the priority channels (R38). -/
def slotOrder (normal priority : List (Channel × Profile)) : List (Channel × Profile) :=
  if priority.isEmpty then normal
  else if normal.isEmpty then priority
  else normal.flatMap fun x => priority ++ [x]

/-- Slots numbered from an index on (R38). -/
def numberSlots : Nat → List (Channel × Profile) → List PlanSlot
  | _, [] => []
  | i, (c, f) :: rest => ⟨c, i, f⟩ :: numberSlots (i + 1) rest

/-- The slot list of a round (R38). -/
def slotList (plan : Plan) (r : RoundNumber) : List PlanSlot :=
  numberSlots 0
    (slotOrder (planChannels plan fun c f => !f.priority && f.due c r)
      (planChannels plan fun _ f => f.priority))

/-! ### The round boundary -/

/-- A table entry with the STALE mark set if it is VALID (R32, R35). -/
def TableEntry.markStale (e : TableEntry) : TableEntry :=
  if e.valid then { e with stale := true } else e

/-- The result table at a boundary: every channel that leaves the plan is marked (R32, R35). -/
def markLeaving (table : PerChannel TableEntry) (old new : Plan) : PerChannel TableEntry :=
  .tabulate fun c =>
    if (old.get c).isSome && (new.get c).isNone then (table.get c).markStale else table.get c

/-- The sessions that hold a claim on a channel (R26). -/
def ClaimTable.holders (ct : ClaimTable) (c : Channel) : PerPort Bool :=
  .tabulate fun p => (ct.get p c).isSome

/-- The plan that a snapshot of a Claim Table writes (R33). -/
def ClaimTable.snapshot (ct : ClaimTable) : Plan :=
  .tabulate fun c => (ct.profile c).map fun f => ⟨f, ct.holders c⟩

/-- A claim made ACTIVE (R33). -/
def Claim.activate (cl : Claim) : Claim :=
  { cl with state := .active }

/-- Every claim made ACTIVE (R33). -/
def ClaimTable.activateAll (ct : ClaimTable) : ClaimTable :=
  ct.mapCells fun _ _ cell => cell.map Claim.activate

/-- The PROFILE_CHANGED event of a channel (R34). -/
def profileChangedEvent (c : Channel) (f : Profile) : Event :=
  .profileChanged c f.resolution f.hold f.period f.priority

/-- The PROFILE_CHANGED events of one channel: to every holder in both entries, if the profile differs
(R34). -/
def profileChangesOf (old new : Plan) (c : Channel) : List (Port × Event) :=
  match old.get c, new.get c with
  | some x, some y =>
    if x.profile = y.profile then []
    else
      (allPorts.filter fun p => x.holders.get p && y.holders.get p).map fun p =>
        (p, profileChangedEvent c y.profile)
  | _, _ => []

/-- The PROFILE_CHANGED events of a boundary, channels ascending (R34). -/
def profileChanges (old new : Plan) : List (Port × Event) :=
  allChannels.flatMap (profileChangesOf old new)

/-- The sessions that hold a claim. -/
def ClaimTable.claimHolders (ct : ClaimTable) : List Port :=
  allPorts.filter ct.holdsClaim

/-- The PACE_CHANGED events of a boundary. A boundary out of STOPPED leaves no interval and queues none
(R34). -/
def paceChanges (old new : Option Nat) (holders : List Port) : List (Port × Event) :=
  match old, new with
  | some x, some y => if x = y then [] else holders.map fun p => (p, .paceChanged y)
  | _, _ => []

/-- Step 1 of a boundary that finds the Claim Table empty (R32). -/
def State.stopScheduler (s : State) : State :=
  { s with
    table := markLeaving s.table s.sched.plan (.const none)
    sched :=
      { s.sched with
        state := .stopped
        plan := .const none
        slots := []
        slotPosition := 0
        snapshotInterval := none
        pacingTimer := none } }

/-- The Scheduler after a snapshot of a Claim Table with an interval, taken at an instant (R33, R35): the
new plan, interval, timer and numbers, and the round's slot list. -/
def Scheduler.startRound (sc : Scheduler) (plan : Plan) (interval : Option Nat) (t : Nat) :
    Scheduler :=
  { sc with
    state := if (slotList plan sc.nextRound).isEmpty then .done else .running
    plan := plan
    snapshotInterval := interval
    pacingTimer := interval.map fun i => t + ofMicros i
    currentRound := some sc.nextRound
    nextRound := sc.nextRound + 1
    slots := slotList plan sc.nextRound
    slotPosition := 0 }

/-- The events of a boundary, in the producer's order (R34). -/
def State.boundaryEvents (s : State) : List (Port × Event) :=
  profileChanges s.sched.plan s.claims.snapshot ++
    paceChanges s.sched.snapshotInterval s.effectiveInterval s.claims.claimHolders

/-- Steps 2 to 5 of a boundary that finds claims (R33, R34, R35). -/
def State.takeSnapshot (s : State) (t : Nat) : State :=
  { s.handEvents s.boundaryEvents with
    claims := s.claims.activateAll
    sched := s.sched.startRound s.claims.snapshot s.effectiveInterval t
    table := markLeaving s.table s.sched.plan s.claims.snapshot }

/-- A round boundary, taken whole at an instant (2.3). -/
def State.boundary (s : State) (t : Nat) : State :=
  if s.claims.isEmpty then s.stopScheduler else s.takeSnapshot t

/-! ### The finishing of the last slot -/

/-- The ROUND_SLIP events of a late round (R29). -/
def State.slipEvents (s : State) : List (Port × Event) :=
  s.claims.claimHolders.map fun p => (p, .roundSlip s.roundNow s.sched.ticksLost)

/-- The finishing of the round's last slot (R29). -/
def State.lastSlotFinished (s : State) (t : Nat) : State :=
  match s.sched.state with
  | .running => s.setSched { s.sched with state := .done }
  | .late =>
    ((s.handEvents s.slipEvents).setSched { s.sched with ticksLost := 0 }).boundary t
  | .stopped => s
  | .done => s

/-- The notice that the Claim Table has turned non-empty (R30). It takes a boundary or sets start
pending; the choice that follows a boundary is the caller's. -/
def State.tableTurnsNonEmpty (s : State) (t : Nat) : State :=
  match s.sched.state with
  | .stopped =>
    if s.sched.startPending then s
    else if s.conv.work.isNone then s.boundary t
    else s.setSched { s.sched with startPending := true }
  | .running => s
  | .done => s
  | .late => s

end Sys2Proof.Machine
end

