-- ==== Sys2Proof/Machine/Watch.lean ====
section
/-! DEFINITION. The Watch logic (chapter 7): classification of a delivered value against a claim's
window, and the change of window state with its confirmation. -/

namespace Sys2Proof.Machine

/-- Whether a value is below a present lower bound (R116). -/
def belowLower (w : Window) (v : Int) : Bool :=
  match w.lower with
  | some b => decide (v < b)
  | none => false

/-- Whether a value is above a present upper bound (R116). -/
def aboveUpper (w : Window) (v : Int) : Bool :=
  match w.upper with
  | some b => decide (b < v)
  | none => false

/-- The classification of a value against a window (R116). -/
def classify (w : Window) (v : Int) : WindowState :=
  if belowLower w v then .below else if aboveUpper w v then .above else .inside

/-- What an evaluation leaves: window state, candidate, and whether a WINDOW event is formed. -/
structure WatchResult where
  state : WindowState
  candidate : Option Candidate
  event : Bool
  deriving DecidableEq, Repr

/-- The count a differing classification reaches: one more for a candidate of the same state, else 1
(R117). -/
def candidateCount (candidate : Option Candidate) (k : WindowState) : Nat :=
  match candidate with
  | some c => if c.state = k then c.count + 1 else 1
  | none => 1

/-- The change of window state and candidate at a classification (R117). -/
def watchStep (confirm : Nat) (state : WindowState) (candidate : Option Candidate)
    (k : WindowState) : WatchResult :=
  if state = .unknown then
    { state := k, candidate := none, event := decide (k ≠ .inside) }
  else if k = state then
    { state := state, candidate := none, event := false }
  else if candidateCount candidate k = confirm then
    { state := k, candidate := none, event := true }
  else
    { state := state, candidate := some ⟨k, candidateCount candidate k⟩, event := false }

/-- The evaluation of a claim on a reduced value delivered under it (R115): no window, no evaluation. -/
def Claim.watch (cl : Claim) (v : Int) : WatchResult :=
  match cl.terms.window with
  | none => { state := cl.windowState, candidate := cl.candidate, event := false }
  | some w => watchStep w.confirm cl.windowState cl.candidate (classify w v)

/-- The claim with its window fields as an evaluation leaves them (R3, R117). -/
def Claim.afterWatch (cl : Claim) (v : Int) : Claim :=
  { cl with windowState := (cl.watch v).state, candidate := (cl.watch v).candidate }

/-- The WINDOW event an evaluation forms, if it forms one (R118). -/
def Claim.windowEvent (cl : Claim) (c : Channel) (v : Int) (r : RoundNumber) : Option Event :=
  if (cl.watch v).event then
    some (.window c cl.windowState (cl.watch v).state v r)
  else
    none

/-- A WINDOW event handed to the claim's session, if there is one (R118, R120). -/
def State.handWindowEvent (s : State) (p : Port) : Option Event → State
  | some e => s.handEvent p e
  | none => s

end Sys2Proof.Machine
end

