-- ==== Sys2Proof/Machine/Delivery.lean ====
section
/-! DEFINITION. What a conversion produces and where it goes (chapters 3, 4, 6): the code and CLIP flag,
the result-table entry, the delivery of plan values to claims, and the DEMAND record. -/

namespace Sys2Proof.Machine

/-! ### The code of a voltage -/

/-- The span of a range in nV (R57). -/
def spanOf : Range → Int
  | .low => 1250000000
  | .full => 2500000000
  | .bipolar => 2500000000

/-- The ideal code of an input, rounded down to an integer (R57). -/
def idealCode (r : Range) (res : Resolution) (v : Int) : Int :=
  v * 2 ^ resolutionBits res / spanOf r

/-- The code of an input: the ideal code, or the nearer end of the code space (R57). -/
def codeOf (r : Range) (res : Resolution) (v : Int) : Int :=
  if codeMax r res < idealCode r res v then codeMax r res
  else if idealCode r res v < codeMin r res then codeMin r res
  else idealCode r res v

/-- The CLIP flag of an input: the ideal code lies outside the code space (R57). -/
def clipOf (r : Range) (res : Resolution) (v : Int) : Bool :=
  !inCodeSpace r res (idealCode r res v)

/-- The voltage a stage of the bank capture keeps for a position (R82); 0 where there is none, which no
capture conversion meets (log entry 9). -/
def Bank.stageVoltage (b : Bank) (pos : Nat) : Int :=
  match b with
  | .free => 0
  | .armed _ _ => 0
  | .holding _ _ _ values =>
    match values[pos]? with
    | some v => v.stage
    | none => 0

/-- The input of a piece of work: for PLAN and DEMAND the channel at the start instant, for CAPTURE the
held value (R57). -/
def State.inputOf (s : State) (w : Work) : Int :=
  match w.kind with
  | .plan _ => s.measure w.channel w.range w.start
  | .demand _ _ _ => s.measure w.channel w.range w.start
  | .capture _ pos => s.capture.bank.stageVoltage pos

/-- The code of a piece of work (R58 step 1). -/
def State.workCode (s : State) (w : Work) : Int :=
  codeOf w.range w.resolution (s.inputOf w)

/-- The CLIP flag of a piece of work (R58 step 1). -/
def State.workClip (s : State) (w : Work) : Bool :=
  clipOf w.range w.resolution (s.inputOf w)

/-! ### The result table -/

/-- The entry a completion writes (R62, R72). -/
def completedEntry (code : Int) (clip : Bool) (res : Resolution) (r : RoundNumber) (src : Source) :
    TableEntry where
  valid := true
  value := code
  resolution := res
  round := r
  source := src
  stale := false
  clip := clip

/-- The entry of a channel replaced at a completion (R62, R72). -/
def State.writeEntry (s : State) (c : Channel) (code : Int) (clip : Bool) (res : Resolution)
    (src : Source) : State :=
  s.setTable (s.table.set c (completedEntry code clip res s.roundNow src))

/-! ### Delivery of plan values -/

/-- A code reduced from one resolution to another: an arithmetic shift to the right (R64). -/
def reduceCode (code : Int) (fromRes toRes : Resolution) : Int :=
  code / 2 ^ (resolutionBits fromRes - resolutionBits toRes)

/-- The PLAN record of a claim for a reduced value (R64). -/
def Claim.planRecord (cl : Claim) (c : Channel) (v : Int) (r : RoundNumber) (slot : Nat)
    (clip : Bool) : Record :=
  .plan c v cl.terms.resolution r slot cl.gap cl.terms.priority clip

/-- The claim's gap count set to 0 (R55). -/
def Claim.resetGap (cl : Claim) : Claim :=
  { cl with gap := 0 }

/-- The PLAN record of a STREAM claim handed to its session's queue; an appended record resets the gap
count (R64, R103). -/
def State.streamValue (s : State) (p : Port) (c : Channel) (cl : Claim) (v : Int) (slot : Nat)
    (clip : Bool) : State :=
  let s₁ := s.handRecord p (cl.planRecord c v s.roundNow slot clip)
  if (s.resultsOf p).accepts then s₁.setClaims (s.claims.set p c (some cl.resetGap)) else s₁

/-- A reduced value delivered under a claim: the window first, then the record (R64, R115). -/
def State.deliverUnder (s : State) (p : Port) (c : Channel) (cl : Claim) (v : Int) (slot : Nat)
    (clip : Bool) : State :=
  let s₁ :=
    (s.handWindowEvent p (cl.windowEvent c v s.roundNow)).setClaims
      (s.claims.set p c (some (cl.afterWatch v)))
  match cl.terms.delivery with
  | .stream => s₁.streamValue p c (cl.afterWatch v) v slot clip
  | .tableOnly => s₁

/-- A plan value delivered to a session, if its claim on the channel receives it (R63). -/
def State.deliverTo (s : State) (p : Port) (w : Work) (slot : Nat) (code : Int) (clip : Bool) : State :=
  match s.claimOf p w.channel with
  | some cl =>
    if cl.receives w.channel s.roundNow then
      s.deliverUnder p w.channel cl (reduceCode code w.resolution cl.terms.resolution) slot clip
    else s
  | none => s

/-- Step 2 of a plan completion: the table, then the receiving claims of each session (R62, R63). -/
def State.deliverPlan (s : State) (w : Work) (slot : Nat) (code : Int) (clip : Bool) : State :=
  ((((s.writeEntry w.channel code clip w.resolution .plan).deliverTo .A w slot code clip).deliverTo .B
    w slot code clip).deliverTo .C w slot code clip)

/-! ### Demand results -/

/-- The DEMAND record of a demand (R73). -/
def demandRecord (w : Work) (tag : Tag) (code : Int) (r : RoundNumber) (clip : Bool) : Record :=
  .demand tag w.channel code w.resolution r clip

/-- Step 2 of a demand completion: the table, then the record unless the requester is gone (R72, R73). -/
def State.deliverDemand (s : State) (w : Work) (tag : Tag) (session : Port) (gone : Bool) (code : Int)
    (clip : Bool) : State :=
  let s₁ := s.writeEntry w.channel code clip w.resolution .demand
  if gone then s₁ else s₁.handRecord session (demandRecord w tag code s.roundNow clip)

end Sys2Proof.Machine
end

