-- ==== Sys2Proof/Machine/Arbiter.lean ====
section
/-! DEFINITION. The Converter's arbiter (chapter 3): the three offers, the skip of held slots, and the
choice. -/

namespace Sys2Proof.Machine

/-! ### Offers (R49) -/

/-- The Demand Queue's offer: its oldest entry of a channel that is not held (R71). -/
def State.demandOffer (s : State) : Option Demand :=
  s.demand.entries.find? fun d => !s.isHeld d.channel

/-- Whether interstitial work is eligible (R49). -/
def State.interstitialEligible (s : State) : Bool :=
  s.capture.bank.offer.isSome || s.demandOffer.isSome

/-- The slots of the round from the slot position on; the first is the Scheduler's offer (R39). -/
def Scheduler.remainingSlots (sc : Scheduler) : List PlanSlot :=
  sc.slots.drop sc.slotPosition

/-! ### Taking work (R48, R56) -/

/-- A work record started at an instant: its end instant is the start plus the cost (R56). -/
def startWork (kind : WorkKind) (c : Channel) (r : Range) (res : Resolution) (h : Hold) (t : Nat) :
    Work where
  kind := kind
  channel := c
  range := r
  resolution := res
  hold := h
  start := t
  finish := t + cost res h

/-- The Converter becomes BUSY with a work record (R48). -/
def State.putWork (s : State) (w : Work) : State :=
  s.setConv { s.conv with work := some w }

/-- The Converter takes a plan slot (R39, R49). -/
def State.takeSlot (s : State) (sl : PlanSlot) (t : Nat) : State :=
  (s.setSched { s.sched with slotPosition := s.sched.slotPosition + 1 }).putWork
    (startWork (.plan sl.index) sl.channel sl.profile.range sl.profile.resolution sl.profile.hold t)

/-- The Converter takes a capture conversion (R49, R87). -/
def State.takeCaptureWork (s : State) (cp : Capture) (pos : Nat) (it : CaptureItem) (t : Nat) :
    State :=
  (s.setCapture { s.capture with bank := s.capture.bank.takeValue pos t }).putWork
    (startWork (.capture cp.tag pos) it.channel it.range cp.resolution .hold t)

/-- The Converter takes a demand, which leaves the queue (R49, R71). -/
def State.takeDemand (s : State) (d : Demand) (t : Nat) : State :=
  (s.setDemand { s.demand with entries := s.demand.entries.erase d }).putWork
    (startWork (.demand d.tag d.session false) d.channel d.range d.resolution d.hold t)

/-- Interstitial work: the bank's offer if there is one, else the Demand Queue's, else none and the
Converter is IDLE (R51 rule 1, R52). -/
def State.takeInterstitial (s : State) (t : Nat) : State :=
  match s.capture.bank.offer with
  | some (cp, pos, it) => s.takeCaptureWork cp pos it t
  | none =>
    match s.demandOffer with
    | some d => s.takeDemand d t
    | none => s

/-! ### Skipping (R54) -/

/-- A gap count raised by one, saturating at 15 (R54). -/
def Claim.raiseGap (cl : Claim) : Claim :=
  { cl with gap := min (cl.gap + 1) 15 }

/-- A cell of the Claim Table after a skip of a slot of a channel in a round (R54). -/
def skipCell (skipped : Channel) (r : RoundNumber) (_p : Port) (c : Channel) (cell : Option Claim) :
    Option Claim :=
  cell.map fun cl => if c = skipped ∧ cl.receives c r then cl.raiseGap else cl

/-- One offered slot skipped: gap counts raised, position moved on (R54). The finishing of a last slot
follows in `State.planTurn` (log entry 8). -/
def State.skipSlot (s : State) (sl : PlanSlot) : State :=
  (s.setClaims (s.claims.mapCells (skipCell sl.channel s.roundNow))).setSched
    { s.sched with slotPosition := s.sched.slotPosition + 1 }

/-- The run of skips at the head of a list of offered slots: the state after it, and the first slot that
is not held, if there is one (R51 rule 2). -/
def State.skipRun (s : State) : List PlanSlot → State × Option PlanSlot
  | [] => (s, none)
  | sl :: rest => if s.isHeld sl.channel then (s.skipSlot sl).skipRun rest else (s, some sl)

/-! ### The choice -/

/-- The choice outside a round (R52). -/
def State.chooseOutside (s : State) (t : Nat) : State :=
  s.takeInterstitial t

/-- Rule 2 of R51 in a round whose last slot, if skipped, finishes it: take the first slot that is not
held, or finish the round and go on with `next`. -/
def State.slotTurn (s : State) (t : Nat) (next : State → State) : State :=
  match s.skipRun s.sched.remainingSlots with
  | (s₁, some sl) => s₁.takeSlot sl t
  | (s₁, none) => next (s₁.lastSlotFinished t)

/-- Whether the Scheduler is in a round: RUNNING or LATE (R51). -/
def Scheduler.inRound (sc : Scheduler) : Bool :=
  decide (sc.state = .running) || decide (sc.state = .late)

/-- Rule 2 of R51. When skips finish a late round, its boundary starts the next round and the arbiter
chooses again there; that round is RUNNING, so skips that finish it leave DONE, and R52 holds. -/
def State.planTurn (s : State) (t : Nat) : State :=
  s.slotTurn t fun s₁ =>
    if s₁.sched.inRound then s₁.slotTurn t fun s₂ => s₂.chooseOutside t else s₁.chooseOutside t

/-- The arbiter's choice with nothing in flight (R50, R51, R52). -/
def State.choose (s : State) (t : Nat) : State :=
  if s.sched.inRound then
    if s.conv.planMark && s.interstitialEligible then s.takeInterstitial t else s.planTurn t
  else s.chooseOutside t

/-- The choice made when work becomes eligible: only while IDLE (R50). -/
def State.chooseIfIdle (s : State) (t : Nat) : State :=
  if s.conv.work.isNone then s.choose t else s

end Sys2Proof.Machine
end

