-- ==== Sys2Proof/Machine/Formats.lean ====
section
/-! DEFINITION. Message formats (chapter 10): codes of the enumerations, the CRC, reply frames, and the
layouts of records, events and reply payloads. -/

namespace Sys2Proof.Machine

/-! ### Numbers as bytes (R157) -/

/-- A number in one byte. -/
def u8 (n : Nat) : Byte := BitVec.ofNat 8 n

/-- A number in two bytes, most significant first. -/
def u16 (n : Nat) : List Byte := [u8 (n / 256), u8 n]

/-- A number in four bytes, most significant first. -/
def u32 (n : Nat) : List Byte := [u8 (n / 16777216), u8 (n / 65536), u8 (n / 256), u8 n]

/-- A code as a 16-bit two's-complement number, most significant byte first. -/
def i16 (x : Int) : List Byte := u16 (BitVec.ofInt 16 x).toNat

/-- A yes/no byte. -/
def flagByte (b : Bool) : Byte := if b then 1 else 0

/-- A bit of a flag byte at a place. -/
def flagBit (place : Nat) (b : Bool) : Nat := if b then 2 ^ place else 0

/-! ### Enumeration codes (Table 10-1) -/

/-- Range codes. -/
def rangeCode : Range → Nat
  | .low => 1
  | .full => 2
  | .bipolar => 3

/-- Hold codes. -/
def holdCode : Hold → Nat
  | .direct => 0
  | .hold => 1

/-- Trigger codes. -/
def triggerCode : Trigger → Nat
  | .immediate => 0
  | .line .trg0 .rising => 1
  | .line .trg0 .falling => 2
  | .line .trg1 .rising => 3
  | .line .trg1 .falling => 4

/-- Window state codes. -/
def windowStateCode : WindowState → Nat
  | .unknown => 0
  | .inside => 1
  | .above => 2
  | .below => 3

/-- Scheduler state codes. -/
def schedulerStateCode : SchedulerState → Nat
  | .stopped => 0
  | .running => 1
  | .done => 2
  | .late => 3

/-! ### Kinds and status codes (R160) -/

/-- The request kinds (Table 10-4). -/
inductive Kind where
  | openKind
  | close
  | linkReset
  | status
  | repeatKind
  | setPace
  | claim
  | release
  | readNow
  | capture
  | cancelCapture
  | getResults
  | resume
  | readTable
  | setWatermark
  | getEvents
  deriving DecidableEq, Repr

/-- The kind a kind byte codes, if it is a code of Table 10-4. -/
def kindOf (b : Byte) : Option Kind :=
  match b.toNat with
  | 0x01 => some .openKind
  | 0x02 => some .close
  | 0x03 => some .linkReset
  | 0x04 => some .status
  | 0x05 => some .repeatKind
  | 0x10 => some .setPace
  | 0x11 => some .claim
  | 0x12 => some .release
  | 0x20 => some .readNow
  | 0x21 => some .capture
  | 0x22 => some .cancelCapture
  | 0x30 => some .getResults
  | 0x31 => some .resume
  | 0x32 => some .readTable
  | 0x33 => some .setWatermark
  | 0x40 => some .getEvents
  | _ => none

/-- Whether a kind needs a session (Table 10-4). -/
def Kind.needsSession : Kind → Bool
  | .openKind => false
  | .close => true
  | .linkReset => false
  | .status => false
  | .repeatKind => false
  | .setPace => true
  | .claim => true
  | .release => true
  | .readNow => true
  | .capture => true
  | .cancelCapture => true
  | .getResults => true
  | .resume => true
  | .readTable => true
  | .setWatermark => true
  | .getEvents => true

/-- The status codes (Table 10-5). -/
inductive Status where
  | ok
  | queued
  | noSession
  | alreadyOpen
  | unknownKind
  | badLength
  | badField
  | crcError
  | frameError
  | conflict
  | overload
  | priorityFull
  | notFound
  | queueFull
  | capturePending
  | tooLate
  | noReply
  deriving DecidableEq, Repr

/-- The byte of a status code (Table 10-5). -/
def Status.code : Status → Byte
  | .ok => 0
  | .queued => 1
  | .noSession => 2
  | .alreadyOpen => 3
  | .unknownKind => 4
  | .badLength => 5
  | .badField => 6
  | .crcError => 7
  | .frameError => 8
  | .conflict => 9
  | .overload => 10
  | .priorityFull => 11
  | .notFound => 12
  | .queueFull => 13
  | .capturePending => 14
  | .tooLate => 15
  | .noReply => 16

/-! ### CRC (R145) -/

/-- The CRC register after one bit: generator x^16 + x^15 + x^2 + 1. -/
def crcBit (crc : BitVec 16) (b : Bool) : BitVec 16 :=
  if crc.msb != b then (crc <<< 1) ^^^ 0x8005#16 else crc <<< 1

/-- The bits of a byte, most significant first (9.2). -/
def bitsOfByte (b : Byte) : List Bool :=
  [b.getLsbD 7, b.getLsbD 6, b.getLsbD 5, b.getLsbD 4, b.getLsbD 3, b.getLsbD 2, b.getLsbD 1,
    b.getLsbD 0]

/-- The CRC register after one byte. -/
def crcByte (crc : BitVec 16) (b : Byte) : BitVec 16 :=
  (bitsOfByte b).foldl crcBit crc

/-- The CRC of a run of bytes: the register starts at all ones. -/
def crc16 (bytes : List Byte) : BitVec 16 :=
  bytes.foldl crcByte 0xFFFF#16

/-- The bytes of a request frame that its CRC covers (R145). -/
def Frame.covered (f : Frame) : List Byte :=
  f.kind :: f.sequence :: u8 f.payload.length :: f.payload

/-- Whether a frame's CRC is good (R145). -/
def Frame.good (f : Frame) : Bool :=
  decide (crc16 f.covered = f.crc)

/-- The bytes of a reply frame that its CRC covers (R158). -/
def Reply.covered (r : Reply) : List Byte :=
  r.kind :: r.sequence :: r.status :: u8 r.payload.length :: r.payload

/-- A reply frame as it is shifted out (R158). -/
def Reply.bytes (r : Reply) : List Byte :=
  r.covered ++ u16 (crc16 r.covered).toNat

/-! ### Records (R165) -/

/-- One value of a CAPTURE record (Table 10-13). -/
def CaptureValue.bytes (v : CaptureValue) : List Byte :=
  u8 v.channel.val :: i16 v.value ++ [u8 (flagBit 0 v.droop + flagBit 1 v.clip)]

/-- A record as laid out in a GET_RESULTS reply (Table 10-13). -/
def Record.bytes : Record → List Byte
  | .plan c v res r slot gap prio clip =>
    [1, u8 c.val] ++ i16 v ++ [u8 (resolutionBits res)] ++ u16 r.toNat ++
      [u8 slot, u8 (gap % 16 + flagBit 4 prio + flagBit 5 clip)]
  | .demand tag c v res r clip =>
    [2, tag, u8 c.val] ++ i16 v ++ [u8 (resolutionBits res)] ++ u16 r.toNat ++ [u8 (flagBit 0 clip)]
  | .capture tag trig r extra values =>
    [3, tag, u8 (triggerCode trig)] ++ u16 r.toNat ++ [u8 extra, u8 values.length] ++
      values.flatMap CaptureValue.bytes

/-- The size of a record in a reply: 9 bytes, or 7 + 4 × n for a CAPTURE record of n values (R165). -/
def Record.size : Record → Nat
  | .plan _ _ _ _ _ _ _ _ => 9
  | .demand _ _ _ _ _ _ => 9
  | .capture _ _ _ _ values => 7 + 4 * values.length

/-! ### Events (R166) -/

/-- An event as laid out in a GET_EVENTS reply, 8 bytes (Table 10-14). -/
def Event.bytes : Event → List Byte
  | .window c old new v r =>
    [1, u8 c.val, u8 (windowStateCode old), u8 (windowStateCode new)] ++ i16 v ++ u16 r.toNat
  | .roundSlip r ticks => [2] ++ u16 r.toNat ++ [u8 ticks, 0, 0, 0, 0]
  | .captureTimeout tag => [3, tag, 0, 0, 0, 0, 0, 0]
  | .profileChanged c res h per prio =>
    [4, u8 c.val, u8 (resolutionBits res), u8 (holdCode h), u8 (periodRounds per), flagByte prio, 0, 0]
  | .paceChanged i => [5] ++ u16 i ++ [0, 0, 0, 0, 0]

/-! ### Reply payloads (R164) -/

/-- A READ_TABLE entry (Table 10-12). -/
def TableEntry.bytes (c : Channel) (e : TableEntry) : List Byte :=
  [u8 c.val,
    u8 (flagBit 0 e.valid + flagBit 1 (decide (e.source = .demand)) + flagBit 2 e.stale +
      flagBit 3 e.clip)] ++
    i16 e.value ++ [u8 (resolutionBits e.resolution)] ++ u16 e.round.toNat

/-- A channel's four bytes in a STATUS reply (Table 10-11). -/
def profileBytes : Option Profile → List Byte
  | none => [0, 0, 0, 0]
  | some f =>
    [u8 (rangeCode f.range), u8 (resolutionBits f.resolution), u8 (periodRounds f.period),
      u8 (flagBit 0 (decide (f.hold = .hold)) + flagBit 1 f.priority)]

/-- The OPEN reply's payload (Table 10-10). -/
def openPayload (epoch : Epoch) : List Byte :=
  epoch :: u16 Config.familyCode ++ [u8 Config.siliconRevision]

/-- The GET_RESULTS reply's payload (Table 10-10). -/
def resultsPayload (taken : List Record) (left : Nat) : List Byte :=
  [u8 taken.length, u8 left] ++ taken.flatMap Record.bytes

/-- The GET_EVENTS reply's payload (Table 10-10). -/
def eventsPayload (taken : List Event) (left : Nat) (lost : Bool) : List Byte :=
  [u8 taken.length, u8 left, flagByte lost] ++ taken.flatMap Event.bytes

/-- The STATUS reply's payload, 88 bytes (Table 10-11, R45). -/
def State.statusPayload (s : State) (p : Port) : List Byte :=
  [u8 (schedulerStateCode s.sched.state)] ++ u16 s.sched.nextRound.toNat ++
    u16 (s.effectiveInterval.getD 0) ++ u16 (s.sched.snapshotInterval.getD 0) ++
    u32 s.claims.load ++ u32 s.claims.reserve ++ u32 (budget (s.effectiveInterval.getD 0)) ++
    allChannels.flatMap (fun c => profileBytes (s.profile c)) ++
    [u8 s.demand.entries.length, u8 s.capture.list.length, flagByte (s.sessionOf p).isOpen,
      u8 (if (s.sessionOf p).isOpen then (s.resultsOf p).records.length else 0),
      u8 (if (s.sessionOf p).isOpen then (s.eventsOf p).events.length else 0)]

end Sys2Proof.Machine
end

