-- ==== Sys2Proof/Machine/Flags.lean ====
section
/-! DEFINITION. The flags of the port status byte, the byte itself, what a selection shifts out, and the
alert lines. Each follows its conditions at once, so each is computed from the state. -/

namespace Sys2Proof.Machine

/-- REPLY_READY (R154). -/
def State.replyReady (s : State) (p : Port) : Bool :=
  (s.portOf p).reply.isSome

/-- SESSION_OPEN (R128). -/
def State.sessionOpen (s : State) (p : Port) : Bool :=
  (s.sessionOf p).isOpen

/-- EVENTS_PENDING (R124). -/
def State.eventsPending (s : State) (p : Port) : Bool :=
  s.sessionOpen p && !(s.eventsOf p).events.isEmpty

/-- AT_WATERMARK (R111). -/
def State.atWatermark (s : State) (p : Port) : Bool :=
  s.sessionOpen p && decide ((s.resultsOf p).watermark ≤ (s.resultsOf p).records.length)

/-- LAPSED (R111). -/
def State.lapsedFlag (s : State) (p : Port) : Bool :=
  s.sessionOpen p && (s.resultsOf p).lapsed

/-- Whether the port's alert line is asserted, that is driven low (R125). -/
def State.alertAsserted (s : State) (p : Port) : Bool :=
  s.sessionOpen p && (s.eventsPending p || s.atWatermark p || s.lapsedFlag p)

/-- The port status byte as the flags stand (R159). -/
def State.statusByte (s : State) (p : Port) : Byte :=
  u8 (flagBit 7 (s.replyReady p) + flagBit 6 (s.sessionOpen p) + flagBit 5 (s.eventsPending p) +
    flagBit 4 (s.atWatermark p) + flagBit 3 (s.lapsedFlag p) + flagBit 2 (s.portOf p).dropped +
    flagBit 1 (s.sessionOf p).expired + flagBit 0 (s.sessionOf p).resetSeen)

/-- The DROPPED bit of a status byte (Table 10-3). -/
def showsDropped (status : Byte) : Bool :=
  status.getLsbD 2

/-- The bytes a selection under way shifts out before the fill bytes: the status byte it fixed and, if it
is reply-shown, the reply in the slot (R141). A void selection shifts out fill bytes alone (R155).
DESIGN CHOICE (log entry 10): R141 says too that a reply READY at the assertion keeps being shifted out even
if a reset empties the slot later in the selection, where R155 has the rest of that selection fill bytes of
0; the model takes R155. -/
def State.shiftedOut (s : State) (p : Port) : List Byte :=
  match (s.portOf p).selection with
  | none => []
  | some sel =>
    match (s.portOf p).reply with
    | some r => if sel.replyShown then sel.status :: r.bytes else [sel.status]
    | none => [sel.status]

/-- The byte at a place of what a selection shifts out; fill bytes are 0 (R141). -/
def State.sdoByte (s : State) (p : Port) (k : Nat) : Byte :=
  (s.shiftedOut p).getD k 0

/-- The bit on xSDO at a clock of the selection, counted from 0: every byte is shifted most significant bit
first (9.2, R157), as it is in the other direction (`bytesOfBits`). -/
def State.sdoBit (s : State) (p : Port) (k : Nat) : Bool :=
  (bitsOfByte (s.sdoByte p (k / 8))).getD (k % 8) false

end Sys2Proof.Machine
end

