-- ==== Sys2Proof/Machine/Operands.lean ====
section
/-! DEFINITION. The fields of the requests (10.5): each payload read as its layout gives it, or refused
BAD_FIELD; the payload lengths of the kinds (Table 10-6); and the bits of a selection read as a frame
(9.2, 9.3). -/

namespace Sys2Proof.Machine

/-! ### Fields -/

/-- A two-byte field, most significant byte first (R157). -/
def be16 (hi lo : Byte) : Nat := hi.toNat * 256 + lo.toNat

/-- A code field: 16-bit two's complement (R157). -/
def codeField (hi lo : Byte) : Int := (BitVec.ofNat 16 (be16 hi lo)).toInt

/-- A channel byte, 0–15 (R157). -/
def channelField (b : Byte) : Option Channel :=
  if h : b.toNat < 16 then some ⟨b.toNat, h⟩ else none

/-- A range byte (Table 10-1). -/
def rangeField (b : Byte) : Option Range :=
  match b.toNat with
  | 1 => some .low
  | 2 => some .full
  | 3 => some .bipolar
  | _ => none

/-- A resolution byte (Table 10-1). -/
def resolutionField (b : Byte) : Option Resolution :=
  match b.toNat with
  | 8 => some .bits8
  | 10 => some .bits10
  | 12 => some .bits12
  | _ => none

/-- A hold byte (Table 10-1). -/
def holdField (b : Byte) : Option Hold :=
  match b.toNat with
  | 0 => some .direct
  | 1 => some .hold
  | _ => none

/-- A period byte (Table 10-1). -/
def periodField (b : Byte) : Option Period :=
  match b.toNat with
  | 1 => some .p1
  | 2 => some .p2
  | 4 => some .p4
  | 8 => some .p8
  | 16 => some .p16
  | _ => none

/-- A yes/no byte (Table 10-1). -/
def boolField (b : Byte) : Option Bool :=
  match b.toNat with
  | 0 => some false
  | 1 => some true
  | _ => none

/-- A delivery byte (Table 10-1). -/
def deliveryField (b : Byte) : Option Delivery :=
  match b.toNat with
  | 0 => some .stream
  | 1 => some .tableOnly
  | _ => none

/-- A trigger byte (Table 10-1). -/
def triggerField (b : Byte) : Option Trigger :=
  match b.toNat with
  | 0 => some .immediate
  | 1 => some (.line .trg0 .rising)
  | 2 => some (.line .trg0 .falling)
  | 3 => some (.line .trg1 .rising)
  | 4 => some (.line .trg1 .falling)
  | _ => none

/-- A number within inclusive bounds. -/
def boundedField (lo hi n : Nat) : Option Nat :=
  if lo ≤ n ∧ n ≤ hi then some n else none

/-! ### Requests -/

/-- An OPEN's fields (Table 10-7). -/
structure OpenRequest where
  pace : Nat
  lease : Nat
  watermark : Nat
  deriving DecidableEq, Repr

/-- A CLAIM's fields (Table 10-8). -/
structure ClaimRequest where
  channel : Channel
  terms : ClaimTerms
  deriving DecidableEq, Repr

/-- A READ_NOW's fields (Table 10-9). -/
structure ReadNowRequest where
  channel : Channel
  range : Range
  resolution : Resolution
  hold : Hold
  deriving DecidableEq, Repr

/-- A CAPTURE's fields (Table 10-9). -/
structure CaptureRequest where
  items : List CaptureItem
  resolution : Resolution
  trigger : Trigger
  armTimeout : Option Nat
  deriving DecidableEq, Repr

/-- No payload. -/
def readNothing : List Byte → Option Unit
  | [] => some ()
  | _ :: _ => none

/-- An OPEN payload; a watermark of 0 is kept as sent (Table 10-7). -/
def readOpen : List Byte → Option OpenRequest
  | [p1, p0, l1, l0, w] => do
    let pace ← boundedField 20 65535 (be16 p1 p0)
    let lease ← boundedField 10 60000 (be16 l1 l0)
    let watermark ← boundedField 0 32 w.toNat
    pure ⟨pace, lease, watermark⟩
  | _ => none

/-- A SET_PACE payload (Table 10-7). -/
def readPace : List Byte → Option Nat
  | [p1, p0] => boundedField 20 65535 (be16 p1 p0)
  | _ => none

/-- A RELEASE payload (Table 10-7). -/
def readChannel : List Byte → Option Channel
  | [c] => channelField c
  | _ => none

/-- A CANCEL_CAPTURE payload (Table 10-7). -/
def readTag : List Byte → Option Tag
  | [t] => some t
  | _ => none

/-- A GET_RESULTS or SET_WATERMARK payload, 1–32 (Table 10-7). -/
def readUpTo32 : List Byte → Option Nat
  | [n] => boundedField 1 32 n.toNat
  | _ => none

/-- A GET_EVENTS payload, 1–8 (Table 10-7). -/
def readUpTo8 : List Byte → Option Nat
  | [n] => boundedField 1 8 n.toNat
  | _ => none

/-- A READ_TABLE payload: the channel mask (Table 10-7). -/
def readMask : List Byte → Option (BitVec 16)
  | [m1, m0] => some (BitVec.ofNat 16 (be16 m1 m0))
  | _ => none

/-- A bound of a window: absent, or a code (Table 10-8). -/
def boundField (present : Bool) (hi lo : Byte) : Option Int :=
  if present then some (codeField hi lo) else none

/-- The window fields of a CLAIM: absent when bit 0 of the flags is 0, and the ignored bytes then are not
looked at (Table 10-8). -/
def windowField (flags l1 l0 u1 u0 confirm : Byte) : Option Window :=
  if flags.getLsbD 0 then
    some
      { lower := boundField (flags.getLsbD 1) l1 l0
        upper := boundField (flags.getLsbD 2) u1 u0
        confirm := confirm.toNat }
  else none

/-- Whether a bound is absent or in a code space (R15). -/
def boundInSpace (r : Range) (res : Resolution) (b : Option Int) : Bool :=
  b.all (inCodeSpace r res)

/-- Whether a lower bound is not above an upper bound (R15). -/
def boundsOrdered (lower upper : Option Int) : Bool :=
  match lower, upper with
  | some l, some u => decide (l ≤ u)
  | _, _ => true

/-- Whether a window is one that R15 accepts for a range and resolution. -/
def Window.valid (w : Window) (r : Range) (res : Resolution) : Bool :=
  (w.lower.isSome || w.upper.isSome) && boundInSpace r res w.lower && boundInSpace r res w.upper &&
    boundsOrdered w.lower w.upper && decide (1 ≤ w.confirm) && decide (w.confirm ≤ 4)

/-- Whether the terms of a claim are ones that R15 accepts. -/
def ClaimTerms.valid (t : ClaimTerms) : Bool :=
  (!t.priority || decide (t.period = .p1)) &&
    match t.window with
    | some w => w.valid t.range t.resolution
    | none => true

/-- The value, if it passes a test. -/
def keepIf {α : Type} (ok : α → Bool) (x : α) : Option α :=
  if ok x then some x else none

/-- A CLAIM payload (Table 10-8, R15). -/
def readClaim : List Byte → Option ClaimRequest
  | [c, r, res, h, per, prio, del, flags, l1, l0, u1, u0, confirm] => do
    let channel ← channelField c
    let range ← rangeField r
    let resolution ← resolutionField res
    let hold ← holdField h
    let period ← periodField per
    let priority ← boolField prio
    let delivery ← deliveryField del
    let terms ←
      keepIf ClaimTerms.valid
        { range := range
          resolution := resolution
          hold := hold
          period := period
          priority := priority
          delivery := delivery
          window := windowField flags l1 l0 u1 u0 confirm }
    pure ⟨channel, terms⟩
  | _ => none

/-- A READ_NOW payload (Table 10-9). -/
def readReadNow : List Byte → Option ReadNowRequest
  | [c, r, res, h] => do
    let channel ← channelField c
    let range ← rangeField r
    let resolution ← resolutionField res
    let hold ← holdField h
    pure ⟨channel, range, resolution, hold⟩
  | _ => none

/-- The items of a CAPTURE: pairs of a channel byte and a range byte (Table 10-9). -/
def readItems : List Byte → Option (List CaptureItem)
  | [] => some []
  | [_] => none
  | c :: r :: rest => do
    let channel ← channelField c
    let range ← rangeField r
    let items ← readItems rest
    pure (⟨channel, range⟩ :: items)

/-- Whether no two items name one channel (R78). -/
def distinctChannels : List CaptureItem → Bool
  | [] => true
  | it :: rest => rest.all (fun x => x.channel != it.channel) && distinctChannels rest

/-- The arm timeout of a CAPTURE: not examined for IMMEDIATE, 1–10,000 ms for a line trigger; the outer
`none` is BAD_FIELD (R78). -/
def armTimeoutField (trigger : Trigger) (n : Nat) : Option (Option Nat) :=
  match trigger with
  | .immediate => some none
  | .line _ _ => (boundedField 1 10000 n).map some

/-- A CAPTURE payload (Table 10-9, R78, R162). -/
def readCapture : List Byte → Option CaptureRequest
  | count :: res :: trig :: t1 :: t0 :: rest => do
    let n ← boundedField 1 8 count.toNat
    let resolution ← resolutionField res
    let trigger ← triggerField trig
    let armTimeout ← armTimeoutField trigger (be16 t1 t0)
    let items ← readItems rest
    let items ← keepIf distinctChannels items
    let items ← keepIf (fun l => l.length == n) items
    pure ⟨items, resolution, trigger, armTimeout⟩
  | _ => none

/-- Whether a payload's length is the one its kind asks (Table 10-6, R162). A REPEAT that reaches the
check always fails it (R161). -/
def lengthFits (k : Kind) (payload : List Byte) : Bool :=
  match k with
  | .openKind => payload.length == 5
  | .close => payload.length == 0
  | .linkReset => payload.length == 0
  | .status => payload.length == 0
  | .repeatKind => false
  | .setPace => payload.length == 2
  | .claim => payload.length == 13
  | .release => payload.length == 1
  | .readNow => payload.length == 4
  | .capture =>
    decide (5 ≤ payload.length) && payload.length == 5 + 2 * ((payload.headD 0).toNat)
  | .cancelCapture => payload.length == 1
  | .getResults => payload.length == 1
  | .resume => payload.length == 0
  | .readTable => payload.length == 2
  | .setWatermark => payload.length == 1
  | .getEvents => payload.length == 1

/-! ### The bits of a selection (R142, R144) -/

/-- A byte of eight bits, most significant first (9.2). -/
def byteOfBits (b7 b6 b5 b4 b3 b2 b1 b0 : Bool) : Byte :=
  u8 (flagBit 7 b7 + flagBit 6 b6 + flagBit 5 b5 + flagBit 4 b4 + flagBit 3 b3 + flagBit 2 b2 +
    flagBit 1 b1 + flagBit 0 b0)

/-- The whole bytes of a run of bits; what is left of a byte is not one. -/
def bytesOfBits : List Bool → List Byte
  | b7 :: b6 :: b5 :: b4 :: b3 :: b2 :: b1 :: b0 :: rest =>
    byteOfBits b7 b6 b5 b4 b3 b2 b1 b0 :: bytesOfBits rest
  | _ => []

/-- What a selection carried (R142, R144). -/
inductive Carried where
  /-- fetch-only. -/
  | nothing
  /-- a malformed frame, with the kind and sequence bytes its FRAME_ERROR reply carries. -/
  | malformed (kind sequence : Byte)
  /-- a complete frame. -/
  | frame (f : Frame)
  deriving DecidableEq, Repr

/-- The frame after its header: complete when payload and CRC bytes are all there, else malformed; bits
after a complete frame are ignored (R142, R144). -/
def frameOf (kind sequence len : Byte) (rest : List Byte) : Carried :=
  if 240 < len.toNat then .malformed kind sequence
  else
    match rest.drop len.toNat with
    | hi :: lo :: _ => .frame ⟨kind, sequence, rest.take len.toNat, BitVec.ofNat 16 (be16 hi lo)⟩
    | _ => .malformed kind sequence

/-- What whole bytes shifted in carry (R142, R144). -/
def carriedOfBytes : List Byte → Carried
  | [] => .nothing
  | kind :: rest =>
    if kind = 0 then .nothing
    else
      match rest with
      | [] => .malformed kind 0
      | [sequence] => .malformed kind sequence
      | sequence :: len :: rest => frameOf kind sequence len rest

/-- What a selection carried, from the bits shifted in (R142). -/
def carried (sdi : List Bool) : Carried :=
  carriedOfBytes (bytesOfBits sdi)

end Sys2Proof.Machine
end

