-- ==== Sys2Proof/Machine/Requests.lean ====
section
/-! DEFINITION. How an executing request is answered (R150, R161): the common checks in their order, the
owner's answer, and the reply written into the port. -/

namespace Sys2Proof.Machine

/-- An owner's answer: the state it leaves, its status code and its payload. -/
structure Answer where
  state : State
  status : Status
  payload : List Byte
  deriving DecidableEq, Repr

/-- A refusal: nothing changes and there is no payload (R164). -/
def refuse (s : State) (st : Status) : Answer := ⟨s, st, []⟩

/-- The reply of a port to a frame (Table 10-2). -/
def replyTo (f : Frame) (st : Status) (payload : List Byte) : Reply where
  kind := f.kind
  sequence := f.sequence
  status := st.code
  payload := payload

/-- The port with a reply made READY: the request slot is EMPTY, and the reply is the last-reply copy
(R150). -/
def HostPort.makeReady (h : HostPort) (r : Reply) : HostPort :=
  { h with request := none, reply := some r, lastReply := some r }

/-- A reply made READY on a port (R150). -/
def State.makeReady (s : State) (p : Port) (r : Reply) : State :=
  s.setPort p ((s.portOf p).makeReady r)

/-- The common checks before the fields: NO_SESSION, then BAD_LENGTH (R161 checks 2 and 3). -/
def State.commonRefusal (s : State) (p : Port) (k : Kind) (f : Frame) : Option Status :=
  if k.needsSession && !s.sessionOpen p then some .noSession
  else if !lengthFits k f.payload then some .badLength
  else none

/-- The answer to an executing request of a kind: the first refusal of the common checks, else the
owner's answer (R161). -/
def State.answerOf {α : Type} (s : State) (p : Port) (k : Kind) (f : Frame)
    (read : List Byte → Option α) (owner : State → α → Answer) : Answer :=
  match s.commonRefusal p k f with
  | some st => refuse s st
  | none =>
    match read f.payload with
    | none => refuse s .badField
    | some x => owner s x

/-- The happening in which the owner of a kind takes the request the port holds as EXECUTING and forms
the reply (R150). With no such request executing there is nothing to take (log entry 4). -/
def State.serve {α : Type} (s : State) (p : Port) (k : Kind) (read : List Byte → Option α)
    (owner : State → α → Answer) : State :=
  match (s.portOf p).request with
  | none => s
  | some f =>
    if kindOf f.kind = some k then
      let a := s.answerOf p k f read owner
      a.state.makeReady p (replyTo f a.status a.payload)
    else s

end Sys2Proof.Machine
end

