-- ==== Sys2Proof/Machine/Conversions.lean ====
section
/-! DEFINITION. The Converter's completion (chapter 3) and the Demand Queue's request (chapter 4):
CONVERSION_COMPLETE and READ_NOW. -/

namespace Sys2Proof.Machine

/-! ### CONVERSION_COMPLETE (R58) -/

/-- Step 2: the result goes to its owner. -/
def State.deliverResult (s : State) (w : Work) : State :=
  match w.kind with
  | .plan slot => s.deliverPlan w slot (s.workCode w) (s.workClip w)
  | .demand tag session gone => s.deliverDemand w tag session gone (s.workCode w) (s.workClip w)
  | .capture _ pos => s.receiveCaptureValue pos (s.workCode w) (s.workClip w) w.finish

/-- Step 3: a plan slot is finished, and the last one of the list finishes the round. -/
def State.finishSlot (s : State) (w : Work) : State :=
  match w.kind with
  | .plan slot => if slot + 1 = s.sched.slots.length then s.lastSlotFinished w.finish else s
  | .demand _ _ _ => s
  | .capture _ _ => s

/-- Step 4: the deferred boundary (R31). -/
def State.takeDeferredBoundary (s : State) (t : Nat) : State :=
  if s.sched.startPending then
    (s.setSched { s.sched with startPending := false }).boundary t
  else s

/-- The plan mark a completion leaves (R53). -/
def WorkKind.mark : WorkKind → Bool
  | .plan _ => true
  | .demand _ _ _ => false
  | .capture _ _ => false

/-- Step 5, before the choice: the plan mark set and the work record released. -/
def State.releaseWork (s : State) (w : Work) : State :=
  s.setConv { work := none, planMark := w.kind.mark }

/-- The completion of a conversion at its end instant, in its five steps (R58). -/
def State.complete (s : State) (w : Work) : State :=
  (((((s.deliverResult w).finishSlot w).takeDeferredBoundary w.finish).releaseWork w).choose w.finish)

/-- CONVERSION_COMPLETE (R58). With nothing in flight no conversion ends. -/
def execConversionComplete (s : State) : Host.Outcome State Fault Refusal :=
  match s.conv.work with
  | none => .next s
  | some w => .next (s.complete w)

/-! ### READ_NOW -/

/-- The tag of a demand in flight (R69). -/
def Work.demandTag (w : Work) : Option Tag :=
  match w.kind with
  | .demand tag _ _ => some tag
  | .plan _ => none
  | .capture _ _ => none

/-- The tags of the outstanding demands, in the queue and in flight (R69). -/
def State.outstandingTags (s : State) : List Tag :=
  (s.conv.work.bind Work.demandTag).toList ++ s.demand.entries.map (·.tag)

/-- The first tag from a counter on that no outstanding demand carries. As many raises as there are
outstanding tags are enough (R69). -/
def freshTag (outstanding : List Tag) : Nat → Tag → Tag
  | 0, tag => tag
  | n + 1, tag => if tag ∈ outstanding then freshTag outstanding n (tag + 1) else tag

/-- The tag the next taken READ_NOW receives (R69). -/
def State.freshDemandTag (s : State) : Tag :=
  freshTag s.outstandingTags s.outstandingTags.length s.demand.nextTag

/-- The Demand Queue's limits: 2 entries of one session, 6 in all (R67, R68). -/
def maxDemandsOfSession : Nat := 2

/-- At most 6 entries (R67). -/
def maxDemands : Nat := 6

/-- The entries of a session in the queue, counted (R68). -/
def DemandQueue.countOf (q : DemandQueue) (p : Port) : Nat :=
  q.entries.countP fun d => decide (d.session = p)

/-- Whether a channel has a current profile of another range (R68, R78). -/
def State.profileConflict (s : State) (c : Channel) (r : Range) : Bool :=
  match s.profile c with
  | some f => decide (f.range ≠ r)
  | none => false

/-- The checks of a READ_NOW, in order (R68). -/
def State.judgeReadNow (s : State) (p : Port) (rq : ReadNowRequest) : Option Status :=
  if s.profileConflict rq.channel rq.range then some .conflict
  else if maxDemandsOfSession ≤ s.demand.countOf p then some .queueFull
  else if maxDemands ≤ s.demand.entries.length then some .queueFull
  else none

/-- The entry of a READ_NOW (R69). -/
def ReadNowRequest.entry (rq : ReadNowRequest) (p : Port) (tag : Tag) : Demand where
  tag := tag
  session := p
  channel := rq.channel
  range := rq.range
  resolution := rq.resolution
  hold := rq.hold

/-- A READ_NOW taken with a tag: the entry joins at the tail and the counter passes the tag (R69). -/
def State.queueDemand (s : State) (d : Demand) : State :=
  s.setDemand { entries := s.demand.entries ++ [d], nextTag := d.tag + 1 }

/-- The Demand Queue takes a READ_NOW; an IDLE Converter's arbiter chooses at once (R68, R69). -/
def ownReadNow (t : Nat) (p : Port) (s : State) (rq : ReadNowRequest) : Answer :=
  match s.judgeReadNow p rq with
  | some st => refuse s st
  | none =>
    { state := (s.queueDemand (rq.entry p s.freshDemandTag)).chooseIfIdle t
      status := .queued
      payload := [s.freshDemandTag] }

/-- READ_NOW (R68, R69). -/
def execReadNow (t : Nat) (p : Port) (s : State) : Host.Outcome State Fault Refusal :=
  .next (s.serve p .readNow readReadNow (ownReadNow t p))

end Sys2Proof.Machine
end

