-- ==== Sys2Proof/Machine/Captures.lean ====
section
/-! DEFINITION. The Capture Bank's commands (chapter 5): CAPTURE, CANCEL_CAPTURE, TRIGGER_EDGE and
ARM_TIMEOUT. -/

namespace Sys2Proof.Machine

/-! ### CAPTURE -/

/-- The checks of a CAPTURE, in order (R78). -/
def State.judgeCapture (s : State) (p : Port) (rq : CaptureRequest) : Option Status :=
  if rq.items.any fun it => s.profileConflict it.channel it.range then some .conflict
  else if (s.capture.captureOf p).isSome then some .capturePending
  else none

/-- The entry of a CAPTURE (R79). -/
def CaptureRequest.entry (rq : CaptureRequest) (p : Port) (tag : Tag) : Capture where
  tag := tag
  session := p
  items := rq.items
  resolution := rq.resolution
  trigger := rq.trigger
  armTimeout := rq.armTimeout

/-- A capture appended to the list, the counter raised (R79). DESIGN CHOICE (log entry 21): the counter's value
is the tag even where a capture still in the list carries it, though R79 says that listed tags are distinct. -/
def State.queueCapture (s : State) (cp : Capture) : State :=
  s.setCapture
    { s.capture with list := s.capture.list ++ [cp], nextTag := s.capture.nextTag + 1 }

/-- The Capture Bank takes a CAPTURE; a FREE bank takes it at once, and an IDLE Converter's arbiter
chooses (R78, R79, R81, R82; log entry 12). The tag is the counter's value, without a skip (log entry 21). -/
def ownCapture (t : Nat) (p : Port) (s : State) (rq : CaptureRequest) : Answer :=
  match s.judgeCapture p rq with
  | some st => refuse s st
  | none =>
    { state := ((s.queueCapture (rq.entry p s.capture.nextTag)).takeHead t).chooseIfIdle t
      status := .queued
      payload := [s.capture.nextTag] }

/-- CAPTURE (R78, R79). -/
def execCapture (t : Nat) (p : Port) (s : State) : Host.Outcome State Fault Refusal :=
  .next (s.serve p .capture readCapture (ownCapture t p))

/-! ### CANCEL_CAPTURE -/

/-- Whether the list holds a capture of a session with a tag (R91). -/
def CaptureBank.holds (b : CaptureBank) (p : Port) (tag : Tag) : Bool :=
  b.list.any fun cp => decide (cp.session = p) && decide (cp.tag = tag)

/-- The Capture Bank takes a CANCEL_CAPTURE (R91). -/
def ownCancelCapture (t : Nat) (p : Port) (s : State) (tag : Tag) : Answer :=
  if s.capture.holds p tag then
    { state := (s.cancel p t).chooseIfIdle t, status := .ok, payload := [] }
  else if s.capture.lastFinished.get p = some tag then refuse s .tooLate
  else refuse s .notFound

/-- CANCEL_CAPTURE (R91). -/
def execCancelCapture (t : Nat) (p : Port) (s : State) : Host.Outcome State Fault Refusal :=
  .next (s.serve p .cancelCapture readTag (ownCancelCapture t p))

/-! ### TRIGGER_EDGE -/

/-- The extra-edge count raised by one, saturating at 255 (R83). -/
def State.countExtraEdge (s : State) : State :=
  s.setCapture { s.capture with extraEdges := min (s.capture.extraEdges + 1) 255 }

/-- An edge taken at the Capture Bank (R83). -/
def State.takeEdge (s : State) (l : TriggerLine) (e : Edge) (t : Nat) : State :=
  match s.capture.bank with
  | .free => s
  | .armed cp _ => if edgeMatches cp.trigger l e then (s.sample cp t).chooseIfIdle t else s
  | .holding cp cancelled _ _ =>
    if !cancelled && edgeMatches cp.trigger l e then s.countExtraEdge else s

/-- TRIGGER_EDGE (R83). -/
def execTriggerEdge (t : Nat) (l : TriggerLine) (e : Edge) (s : State) :
    Host.Outcome State Fault Refusal :=
  .next (s.takeEdge l e t)

/-! ### ARM_TIMEOUT -/

/-- An ARMED capture ended by its timeout: removed, its tag last finished, the event queued, the bank
FREE and the next head taken (R84). -/
def State.timeoutCapture (s : State) (cp : Capture) (t : Nat) : State :=
  let s₁ :=
    s.setCapture
      { s.capture.without cp.session with
        lastFinished := s.capture.lastFinished.set cp.session (some cp.tag) }
  ((s₁.handEvent cp.session (.captureTimeout cp.tag)).freeBank t).chooseIfIdle t

/-- ARM_TIMEOUT (R84). A stopped timer does not run out. -/
def execArmTimeout (s : State) : Host.Outcome State Fault Refusal :=
  match s.capture.bank with
  | .free => .next s
  | .armed cp t => .next (s.timeoutCapture cp t)
  | .holding _ _ _ _ => .next s

end Sys2Proof.Machine
end

