-- ==== Sys2Proof/Machine/Claims.lean ====
section
/-! DEFINITION. The Claim Table's requests (chapter 1): CLAIM, RELEASE and SET_PACE. -/

namespace Sys2Proof.Machine

/-! ### CLAIM -/

/-- A claim as it is created or replaced, with its run-time fields set (R3). -/
def ClaimTerms.newClaim (t : ClaimTerms) : Claim where
  terms := t
  state := .pending
  gap := 0
  windowState := .unknown
  candidate := none

/-- The candidate table (R16). -/
def ClaimTable.candidate (ct : ClaimTable) (p : Port) (rq : ClaimRequest) : ClaimTable :=
  ct.set p rq.channel (some rq.terms.newClaim)

/-- Whether a session other than the asking one holds a claim of another range on the channel (R17
check 1). -/
def ClaimTable.rangeConflict (ct : ClaimTable) (p : Port) (rq : ClaimRequest) : Bool :=
  allPorts.any fun q =>
    decide (q ≠ p) && (ct.get q rq.channel).any fun cl => decide (cl.terms.range ≠ rq.terms.range)

/-- The candidate interval (R16). -/
def State.candidateInterval (s : State) (p : Port) (rq : ClaimRequest) : Option Nat :=
  intervalOf s.sessions (s.claims.candidate p rq)

/-- The judgement of a candidate: the first check that fails (R17). -/
def State.judgeClaim (s : State) (p : Port) (rq : ClaimRequest) : Option Status :=
  if s.claims.rangeConflict p rq then some .conflict
  else if 2 < (s.claims.candidate p rq).priorityChannels then some .priorityFull
  else if !withinBudget (s.claims.candidate p rq).reserve (s.candidateInterval p rq) then
    some .overload
  else none

/-- The candidate taken into the Claim Table; an empty table that turns non-empty gives the Scheduler
notice, and a boundary taken at once lets the arbiter choose (R18, R30, R50). -/
def State.takeClaim (s : State) (p : Port) (rq : ClaimRequest) (t : Nat) : State :=
  let s₁ := s.setClaims (s.claims.candidate p rq)
  if s.claims.isEmpty then (s₁.tableTurnsNonEmpty t).chooseIfIdle t else s₁

/-- The Claim Table takes a CLAIM (R17, R18). -/
def ownClaim (t : Nat) (p : Port) (s : State) (rq : ClaimRequest) : Answer :=
  match s.judgeClaim p rq with
  | some st => refuse s st
  | none =>
    { state := s.takeClaim p rq t
      status := .ok
      payload := u16 s.sched.nextRound.toNat }

/-- CLAIM (R15 to R18). -/
def execClaim (t : Nat) (p : Port) (s : State) : Host.Outcome State Fault Refusal :=
  .next (s.serve p .claim readClaim (ownClaim t p))

/-! ### RELEASE -/

/-- The Claim Table takes a RELEASE (R19). -/
def ownRelease (p : Port) (s : State) (c : Channel) : Answer :=
  match s.claimOf p c with
  | none => refuse s .notFound
  | some _ => { state := s.setClaims (s.claims.set p c none), status := .ok, payload := [] }

/-- RELEASE (R19). -/
def execRelease (p : Port) (s : State) : Host.Outcome State Fault Refusal :=
  .next (s.serve p .release readChannel (ownRelease p))

/-! ### SET_PACE -/

/-- The pace written into a session record (R20). -/
def State.writePace (s : State) (p : Port) (pace : Nat) : State :=
  s.setSession p { s.sessionOf p with pace := some pace }

/-- Whether a new pace would lower the effective round interval below what the reserve allows (R20, case
2). -/
def State.paceOverload (s : State) (p : Port) (pace : Nat) : Bool :=
  s.claims.holdsClaim p &&
    (match s.effectiveInterval with
      | some i => decide (pace < i)
      | none => false) &&
    decide (budget pace < s.claims.reserve)

/-- The Claim Table takes a SET_PACE (R20). -/
def ownSetPace (p : Port) (s : State) (pace : Nat) : Answer :=
  if s.paceOverload p pace then refuse s .overload
  else
    { state := s.writePace p pace
      status := .ok
      payload := u16 ((s.writePace p pace).effectiveInterval.getD 0) }

/-- SET_PACE (R20). -/
def execSetPace (p : Port) (s : State) : Host.Outcome State Fault Refusal :=
  .next (s.serve p .setPace readPace (ownSetPace p))

end Sys2Proof.Machine
end

