-- ==== Sys2Proof/Machine/Link.lean ====
section
/-! DEFINITION. The Host Link (chapter 9): SELECT_ASSERT, SELECT_RELEASE with the taking or dropping of
its frame, and the two requests that no owner takes, UNKNOWN_KIND and REPEAT_BAD_LENGTH. -/

namespace Sys2Proof.Machine

/-! ### SELECT_ASSERT -/

/-- What the assertion of select fixes: the status byte, and whether a reply is shown (R141). -/
def State.fixSelection (s : State) (p : Port) : Selection where
  status := s.statusByte p
  replyShown := s.replyReady p

/-- The assertion of a port's select. While RSTN is held asserted the selection is void, and is held as no
selection at all (R141, R155, log entry 10). -/
def State.assertSelect (s : State) (p : Port) : State :=
  if s.rstnAsserted then s
  else
    match (s.portOf p).selection with
    | some _ => s
    | none => s.setPort p { s.portOf p with selection := some (s.fixSelection p) }

/-- SELECT_ASSERT (R141). -/
def execSelectAssert (p : Port) (s : State) : Host.Outcome State Fault Refusal :=
  .next (s.assertSelect p)

/-! ### Taking a frame (R149 to R153) -/

/-- What the retransmission memory holds of a frame (Table 9-1). -/
def Frame.remembered (f : Frame) : Remembered where
  kind := f.kind
  sequence := f.sequence.setWidth 4
  crc := f.crc

/-- Whether a frame is identical to the remembered one (R152). -/
def HostPort.remembers (h : HostPort) (f : Frame) : Bool :=
  decide (h.memory = some f.remembered)

/-- A reply of the port itself, with no payload (R151). -/
def portReply (kind sequence : Byte) (st : Status) : Reply where
  kind := kind
  sequence := sequence
  status := st.code
  payload := []

/-- A FRAME_ERROR or CRC_ERROR made READY: it replaces the copy and empties the memory (R151). -/
def HostPort.linkError (h : HostPort) (r : Reply) : HostPort :=
  { h with reply := some r, lastReply := some r, memory := none }

/-- The last-reply copy offered again; copy and memory stay (R152, R153). -/
def HostPort.reoffer (h : HostPort) : HostPort :=
  { h with reply := h.lastReply }

/-- A REPEAT of length 0: the copy, or NO_REPLY, which becomes the copy (R153). -/
def HostPort.answerRepeat (h : HostPort) (f : Frame) : HostPort :=
  match h.lastReply with
  | some _ => h.reoffer
  | none =>
    { h with
      reply := some (portReply f.kind f.sequence .noReply)
      lastReply := some (portReply f.kind f.sequence .noReply) }

/-- A frame executed: recorded in the memory, and the request slot EXECUTING (R150). -/
def HostPort.execute (h : HostPort) (f : Frame) : HostPort :=
  { h with memory := some f.remembered, request := some f }

/-- A frame with a good CRC taken by the port: an identical frame, a REPEAT of length 0, or any other
(R149, last three cases). -/
def HostPort.takeGood (h : HostPort) (f : Frame) : HostPort :=
  if h.remembers f then h.reoffer
  else if kindOf f.kind = some .repeatKind ∧ f.payload.length = 0 then h.answerRepeat f
  else h.execute f

/-- The session record with its lease timer restarted, if it is OPEN (R131). -/
def Session.restartLease (r : Session) (t : Nat) : Session :=
  if r.isOpen then { r with leaseTimer := r.lease.map fun l => t + ofMillis l } else r

/-- A complete frame taken: CRC_ERROR, or the cases of a good frame with the lease restarted (R149). -/
def State.takeFrame (s : State) (p : Port) (f : Frame) (t : Nat) : State :=
  if f.good then
    (s.setPort p ((s.portOf p).takeGood f)).setSession p ((s.sessionOf p).restartLease t)
  else s.setPort p ((s.portOf p).linkError (portReply f.kind f.sequence .crcError))

/-! ### SELECT_RELEASE (R146) -/

/-- The port with DROPPED cleared, if the selection showed it in a whole status byte (R146 step 1). -/
def HostPort.clearShownDropped (h : HostPort) (sel : Selection) (shifted : Nat) : HostPort :=
  if showsDropped sel.status && decide (8 ≤ shifted) then { h with dropped := false } else h

/-- Whether every bit of the status byte and of a reply was shifted out (R143). -/
def fetchedWhole (r : Reply) (shifted : Nat) : Bool :=
  decide (8 + 8 * r.bytes.length ≤ shifted)

/-- The port with its reply removed, if the selection showed it and fetched it (R146 step 2). -/
def HostPort.settleFetch (h : HostPort) (sel : Selection) (shifted : Nat) : HostPort :=
  match h.reply with
  | some r => if sel.replyShown && fetchedWhole r shifted then { h with reply := none } else h
  | none => h

/-- Whether both slots are EMPTY, so that a frame is taken (R140). -/
def HostPort.takesFrame (h : HostPort) : Bool :=
  h.request.isNone && h.reply.isNone

/-- The port with DROPPED set (R146 step 3). -/
def HostPort.drop (h : HostPort) : HostPort :=
  { h with dropped := true }

/-- A selection's frame judged: taken with both slots EMPTY, else dropped (R146 step 3). -/
def State.judgeFrame (s : State) (p : Port) (c : Carried) (t : Nat) : State :=
  match c with
  | .nothing => s
  | .malformed kind sequence =>
    if (s.portOf p).takesFrame then
      s.setPort p ((s.portOf p).linkError (portReply kind sequence .frameError))
    else s.setPort p (s.portOf p).drop
  | .frame f =>
    if (s.portOf p).takesFrame then s.takeFrame p f t else s.setPort p (s.portOf p).drop

/-- The port with no selection (R146 step 4). -/
def HostPort.endSelection (h : HostPort) : HostPort :=
  { h with selection := none }

/-- The release of a port's select, its steps in order. A void selection settles nothing (R146, R155). -/
def State.releaseSelect (s : State) (p : Port) (sdi : List Bool) (t : Nat) : State :=
  match (s.portOf p).selection with
  | none => s
  | some sel =>
    if s.rstnAsserted then s.setPort p (s.portOf p).endSelection
    else
      let s₁ :=
        s.setPort p (((s.portOf p).clearShownDropped sel sdi.length).settleFetch sel sdi.length)
      let s₂ := s₁.judgeFrame p (carried sdi) t
      s₂.setPort p (s₂.portOf p).endSelection

/-- SELECT_RELEASE (R146). -/
def execSelectRelease (t : Nat) (p : Port) (sdi : List Bool) (s : State) :
    Host.Outcome State Fault Refusal :=
  .next (s.releaseSelect p sdi t)

/-! ### Requests that no owner takes (R161) -/

/-- An executing request of a kind byte that is no code of Table 10-4 is answered UNKNOWN_KIND (R161). -/
def State.answerUnknown (s : State) (p : Port) : State :=
  match (s.portOf p).request with
  | none => s
  | some f =>
    match kindOf f.kind with
    | some _ => s
    | none => s.makeReady p (replyTo f .unknownKind [])

/-- UNKNOWN_KIND (R161). -/
def execUnknownKind (p : Port) (s : State) : Host.Outcome State Fault Refusal :=
  .next (s.answerUnknown p)

/-- A REPEAT has no owner: one that reaches the common checks fails BAD_LENGTH, so this answer is never
asked for (R161). -/
def ownRepeat (s : State) (_ : Unit) : Answer :=
  refuse s .badLength

/-- REPEAT_BAD_LENGTH (R149, R161). -/
def execRepeatBadLength (p : Port) (s : State) : Host.Outcome State Fault Refusal :=
  .next (s.serve p .repeatKind readNothing ownRepeat)

end Sys2Proof.Machine
end

