-- ==== Sys2Proof/Machine/Resets.lean ====
section
/-! DEFINITION. The resets of the whole part: POWER_ON, RSTN and RSTN_RELEASE. -/

namespace Sys2Proof.Machine

/-- Every block reset, the conversion in flight abandoned, and the session records left with the given
epochs (R24, R47, R60, R66, R76, R96, R113, R127, R139, R155). The level of RSTN, the analog levels and
the waiting commands belong to the world outside and stay. -/
def State.resetPart (s : State) (epochs : PerPort Epoch) : State where
  claims := .empty
  sched := .reset
  conv := .reset
  demand := .reset
  capture := .reset
  table := .const .reset
  results := .const .reset
  events := .const .reset
  sessions := .tabulate fun p => .reset (epochs.get p)
  ports := .const .reset
  rstnAsserted := s.rstnAsserted
  analog := s.analog
  pending := s.pending

/-- POWER_ON: epochs become 0 (R139). -/
def execPowerOn (s : State) : Host.Outcome State Fault Refusal :=
  .next (s.resetPart (.const 0))

/-- RSTN: each epoch keeps its value, and RSTN is held asserted (R139, R155). -/
def execRstn (s : State) : Host.Outcome State Fault Refusal :=
  .next { s.resetPart (.tabulate fun p => (s.sessionOf p).epoch) with rstnAsserted := true }

/-- RSTN_RELEASE: selections that begin from now on are taken normally (R155). -/
def execRstnRelease (s : State) : Host.Outcome State Fault Refusal :=
  .next { s with rstnAsserted := false }

end Sys2Proof.Machine
end

