-- ==== Sys2Proof/Machine/Rounds.lean ====
section
/-! DEFINITION. The Round Scheduler's commands (chapter 2): STATUS and PACING_TICK. -/

namespace Sys2Proof.Machine

/-! ### STATUS -/

/-- The Round Scheduler takes a STATUS (R45). -/
def ownStatus (p : Port) (s : State) (_ : Unit) : Answer where
  state := s
  status := .ok
  payload := s.statusPayload p

/-- STATUS (R45). -/
def execStatus (p : Port) (s : State) : Host.Outcome State Fault Refusal :=
  .next (s.serve p .status readNothing (ownStatus p))

/-! ### PACING_TICK -/

/-- The pacing timer reloaded with the snapshot interval at an instant (R28). -/
def Scheduler.reloadTimer (sc : Scheduler) (t : Nat) : Scheduler :=
  { sc with pacingTimer := sc.snapshotInterval.map fun i => t + ofMicros i }

/-- A tick at the instant the pacing timer runs out (R28). A boundary lets an IDLE Converter's arbiter
choose (R43, R50). -/
def State.tick (s : State) (t : Nat) : State :=
  match s.sched.state with
  | .running => s.setSched { s.sched.reloadTimer t with state := .late, ticksLost := 0 }
  | .late => s.setSched { s.sched.reloadTimer t with ticksLost := min (s.sched.ticksLost + 1) 255 }
  | .done => (s.boundary t).chooseIfIdle t
  | .stopped => s

/-- PACING_TICK (R28). A stopped timer takes no tick. -/
def execPacingTick (s : State) : Host.Outcome State Fault Refusal :=
  match s.sched.pacingTimer with
  | none => .next s
  | some t => .next (s.tick t)

end Sys2Proof.Machine
end

