-- ==== Sys2Proof/Machine/Sessions.lean ====
section
/-! DEFINITION. Sessions (chapter 8): the teardown across the blocks, and OPEN, CLOSE, LINK_RESET and
LEASE_EXPIRY. -/

namespace Sys2Proof.Machine

/-! ### Teardown (R134, Table 8-3) -/

/-- The Claim Table without the claims of a session (R23). -/
def ClaimTable.removeSession (ct : ClaimTable) (p : Port) : ClaimTable :=
  ⟨ct.cells.set p (.const none)⟩

/-- A plan entry whose holder set a session has left (R26). -/
def PlanEntry.removeHolder (e : PlanEntry) (p : Port) : PlanEntry :=
  { e with holders := e.holders.set p false }

/-- The plan with a session out of every holder set (R26). -/
def removeHolder (plan : Plan) (p : Port) : Plan :=
  .tabulate fun c => (plan.get c).map fun e => e.removeHolder p

/-- A work record at the teardown of a session: a demand of it gets requester gone (R59). -/
def Work.teardown (w : Work) (p : Port) : Work :=
  match w.kind with
  | .demand tag session gone =>
    if session = p then { w with kind := .demand tag session true }
    else { w with kind := .demand tag session gone }
  | .plan _ => w
  | .capture _ _ => w

/-- The Demand Queue without the entries of a session (R75). -/
def DemandQueue.removeSession (q : DemandQueue) (p : Port) : DemandQueue :=
  { q with entries := q.entries.filter fun d => d.session != p }

/-- A session record torn down: CLOSED, its lease timer stopped; epoch, pace, lease and flags stay
(R134, R135). -/
def Session.close (r : Session) : Session :=
  { r with isOpen := false, leaseTimer := none }

/-- A result queue emptied by a teardown; the watermark stays (R112). -/
def ResultQueue.teardown (q : ResultQueue) : ResultQueue :=
  { q with records := [], lapsed := false, lost := 0 }

/-- A teardown in every block but the Capture Bank (Table 8-3). -/
def State.teardownBlocks (s : State) (p : Port) : State :=
  { s with
    claims := s.claims.removeSession p
    sched := { s.sched with plan := removeHolder s.sched.plan p }
    conv := { s.conv with work := s.conv.work.map fun w => w.teardown p }
    demand := s.demand.removeSession p
    results := s.results.set p (s.resultsOf p).teardown
    events := s.events.set p .reset
    sessions := s.sessions.set p (s.sessionOf p).close }

/-- The session's capture cancelled as by CANCEL_CAPTURE, and its last finished tag none (R94). -/
def State.teardownCapture (s : State) (p : Port) (t : Nat) : State :=
  let s₁ :=
    s.setCapture { s.capture with lastFinished := s.capture.lastFinished.set p none }
  if (s.capture.captureOf p).isSome then s₁.cancel p t else s₁

/-- The teardown of a session, one happening at an instant (R134). A bank that it frees lets the arbiter
choose if the Converter is IDLE (R50, R91). -/
def State.teardown (s : State) (p : Port) (t : Nat) : State :=
  ((s.teardownBlocks p).teardownCapture p t).chooseIfIdle t

/-! ### OPEN -/

/-- A session record opened: epoch raised, pace and lease written, timer started, flags cleared (R129). -/
def Session.opened (r : Session) (rq : OpenRequest) (t : Nat) : Session where
  isOpen := true
  epoch := r.epoch + 1
  pace := some rq.pace
  lease := some rq.lease
  leaseTimer := some (t + ofMillis rq.lease)
  expired := false
  resetSeen := false

/-- The watermark an OPEN field gives: 0 gives 16 (R110). -/
def watermarkOf (field : Nat) : Nat :=
  if field = 0 then 16 else field

/-- The Session Table takes an OPEN (R129). -/
def ownOpen (t : Nat) (p : Port) (s : State) (rq : OpenRequest) : Answer :=
  if s.sessionOpen p then refuse s .alreadyOpen
  else
    { state :=
        (s.setSession p ((s.sessionOf p).opened rq t)).setResults p
          { s.resultsOf p with watermark := watermarkOf rq.watermark }
      status := .ok
      payload := openPayload ((s.sessionOf p).epoch + 1) }

/-- OPEN (R129). -/
def execOpen (t : Nat) (p : Port) (s : State) : Host.Outcome State Fault Refusal :=
  .next (s.serve p .openKind readOpen (ownOpen t p))

/-! ### CLOSE -/

/-- The Session Table takes a CLOSE (R136). -/
def ownClose (t : Nat) (p : Port) (s : State) (_ : Unit) : Answer where
  state := s.teardown p t
  status := .ok
  payload := []

/-- CLOSE (R136). -/
def execClose (t : Nat) (p : Port) (s : State) : Host.Outcome State Fault Refusal :=
  .next (s.serve p .close readNothing (ownClose t p))

/-! ### LINK_RESET -/

/-- EXPIRED and RESET_SEEN cleared (R137). -/
def Session.clearFlags (r : Session) : Session :=
  { r with expired := false, resetSeen := false }

/-- The port's last-reply copy and retransmission memory emptied and DROPPED cleared (R137, R156). -/
def HostPort.linkReset (h : HostPort) : HostPort :=
  { h with lastReply := none, memory := none, dropped := false }

/-- The teardown of an open session; nothing for a CLOSED one (R137). -/
def State.teardownIfOpen (s : State) (p : Port) (t : Nat) : State :=
  if s.sessionOpen p then s.teardown p t else s

/-- The Session Table and the port take a LINK_RESET (R137). -/
def ownLinkReset (t : Nat) (p : Port) (s : State) (_ : Unit) : Answer :=
  let s₁ := s.teardownIfOpen p t
  { state :=
      (s₁.setSession p (s₁.sessionOf p).clearFlags).setPort p (s₁.portOf p).linkReset
    status := .ok
    payload := [] }

/-- LINK_RESET (R137). -/
def execLinkReset (t : Nat) (p : Port) (s : State) : Host.Outcome State Fault Refusal :=
  .next (s.serve p .linkReset readNothing (ownLinkReset t p))

/-! ### LEASE_EXPIRY -/

/-- EXPIRED set (R132). -/
def Session.setExpired (r : Session) : Session :=
  { r with expired := true }

/-- The expiry of a session at the instant its lease timer runs out (R132). -/
def State.expire (s : State) (p : Port) (t : Nat) : State :=
  let s₁ := s.teardown p t
  s₁.setSession p (s₁.sessionOf p).setExpired

/-- LEASE_EXPIRY (R132). A stopped timer does not run out. -/
def execLeaseExpiry (p : Port) (s : State) : Host.Outcome State Fault Refusal :=
  match (s.sessionOf p).leaseTimer with
  | none => .next s
  | some t => if s.sessionOpen p then .next (s.expire p t) else .next s

end Sys2Proof.Machine
end

