-- ==== Sys2Proof/Machine/Store.lean ====
section
/-! DEFINITION. The requests of the Result Store (chapter 6) and of the Event Queues (chapter 7):
GET_RESULTS, RESUME, READ_TABLE, SET_WATERMARK and GET_EVENTS. -/

namespace Sys2Proof.Machine

/-! ### GET_RESULTS -/

/-- A reply's payload is at most 240 bytes (R105, R164). -/
def maxPayload : Nat := 240

/-- How many records a GET_RESULTS takes: at most `n`, while the next one fits beside `size` bytes
(R105). -/
def fitCount : Nat → Nat → List Record → Nat
  | 0, _, _ => 0
  | _ + 1, _, [] => 0
  | n + 1, size, r :: rest =>
    if size + r.size ≤ maxPayload then fitCount n (size + r.size) rest + 1 else 0

/-- The number of records that a GET_RESULTS for `n` takes from a queue: the payload begins with two
bytes of counts (R105). -/
def ResultQueue.takeCount (q : ResultQueue) (n : Nat) : Nat :=
  fitCount n 2 q.records

/-- The Result Store takes a GET_RESULTS (R105). -/
def ownGetResults (p : Port) (s : State) (n : Nat) : Answer :=
  let q := s.resultsOf p
  let k := q.takeCount n
  { state := s.setResults p { q with records := q.records.drop k }
    status := .ok
    payload := resultsPayload (q.records.take k) (q.records.drop k).length }

/-- GET_RESULTS (R105). -/
def execGetResults (p : Port) (s : State) : Host.Outcome State Fault Refusal :=
  .next (s.serve p .getResults readUpTo32 (ownGetResults p))

/-! ### RESUME -/

/-- The Result Store takes a RESUME (R108). -/
def ownResume (p : Port) (s : State) (_ : Unit) : Answer :=
  let q := s.resultsOf p
  if q.lapsed then
    { state := s.setResults p { q with lapsed := false, lost := 0 }
      status := .ok
      payload := u16 q.lost }
  else { state := s, status := .ok, payload := u16 0 }

/-- RESUME (R108). -/
def execResume (p : Port) (s : State) : Host.Outcome State Fault Refusal :=
  .next (s.serve p .resume readNothing (ownResume p))

/-! ### READ_TABLE -/

/-- The channels a mask names, ascending (R99). -/
def maskChannels (mask : BitVec 16) : List Channel :=
  allChannels.filter fun c => mask.getLsbD c.val

/-- The Result Store takes a READ_TABLE (R99). -/
def ownReadTable (s : State) (mask : BitVec 16) : Answer where
  state := s
  status := .ok
  payload := (maskChannels mask).flatMap fun c => (s.table.get c).bytes c

/-- READ_TABLE (R99). -/
def execReadTable (p : Port) (s : State) : Host.Outcome State Fault Refusal :=
  .next (s.serve p .readTable readMask ownReadTable)

/-! ### SET_WATERMARK -/

/-- The Result Store takes a SET_WATERMARK (R110). -/
def ownSetWatermark (p : Port) (s : State) (n : Nat) : Answer where
  state := s.setResults p { s.resultsOf p with watermark := n }
  status := .ok
  payload := []

/-- SET_WATERMARK (R110). -/
def execSetWatermark (p : Port) (s : State) : Host.Outcome State Fault Refusal :=
  .next (s.serve p .setWatermark readUpTo32 (ownSetWatermark p))

/-! ### GET_EVENTS -/

/-- The Event Queues take a GET_EVENTS (R122). -/
def ownGetEvents (p : Port) (s : State) (n : Nat) : Answer :=
  let q := s.eventsOf p
  { state := s.setEvents p { events := q.events.drop n, lost := false }
    status := .ok
    payload := eventsPayload (q.events.take n) (q.events.drop n).length q.lost }

/-- GET_EVENTS (R122). -/
def execGetEvents (p : Port) (s : State) : Host.Outcome State Fault Refusal :=
  .next (s.serve p .getEvents readUpTo8 (ownGetEvents p))

end Sys2Proof.Machine
end

