-- ==== Sys2Proof/Machine/Dispatch.lean ====
section
/-! DEFINITION. The effect of each command: one arm per row of spec/opcode_table.json. -/

namespace Sys2Proof.Machine

/-- The effect of a command on everything but the queue. -/
def exec (i : Instr) (s : State) : Host.Outcome State Fault Refusal :=
  match i with
  | .selectAssert p => Sys2Proof.Machine.execSelectAssert p s
  | .selectRelease t p sdi => Sys2Proof.Machine.execSelectRelease t p sdi s
  | .openSession t p => Sys2Proof.Machine.execOpen t p s
  | .closeSession t p => Sys2Proof.Machine.execClose t p s
  | .linkReset t p => Sys2Proof.Machine.execLinkReset t p s
  | .status p => Sys2Proof.Machine.execStatus p s
  | .setPace p => Sys2Proof.Machine.execSetPace p s
  | .claim t p => Sys2Proof.Machine.execClaim t p s
  | .release p => Sys2Proof.Machine.execRelease p s
  | .readNow t p => Sys2Proof.Machine.execReadNow t p s
  | .capture t p => Sys2Proof.Machine.execCapture t p s
  | .cancelCapture t p => Sys2Proof.Machine.execCancelCapture t p s
  | .getResults p => Sys2Proof.Machine.execGetResults p s
  | .resume p => Sys2Proof.Machine.execResume p s
  | .readTable p => Sys2Proof.Machine.execReadTable p s
  | .setWatermark p => Sys2Proof.Machine.execSetWatermark p s
  | .getEvents p => Sys2Proof.Machine.execGetEvents p s
  | .unknownKind p => Sys2Proof.Machine.execUnknownKind p s
  | .powerOn => Sys2Proof.Machine.execPowerOn s
  | .rstn => Sys2Proof.Machine.execRstn s
  | .pacingTick => Sys2Proof.Machine.execPacingTick s
  | .conversionComplete => Sys2Proof.Machine.execConversionComplete s
  | .triggerEdge t l e => Sys2Proof.Machine.execTriggerEdge t l e s
  | .armTimeout => Sys2Proof.Machine.execArmTimeout s
  | .leaseExpiry p => Sys2Proof.Machine.execLeaseExpiry p s
  | .rstnRelease => Sys2Proof.Machine.execRstnRelease s
  | .repeatBadLength p => Sys2Proof.Machine.execRepeatBadLength p s

end Sys2Proof.Machine
end

