-- ==== Sys2Proof/Safety.lean ====
section
/-! DEFINITION. What a safe part is, in the terms the statements use: the laws the manual states of its
blocks, each a property of one state that every command keeps, and the words in which a request is asked
and answered. -/

namespace Sys2Proof.Machine

/-! ### The laws of the blocks -/

/-- A claim's run-time fields agree with its terms (R15, R55, R117). -/
def Claim.Lawful (cl : Claim) : Prop :=
  cl.terms.valid = true ∧ cl.gap ≤ 15 ∧
    (cl.terms.window = none → cl.windowState = .unknown ∧ cl.candidate = none) ∧
    ∀ k, cl.candidate = some k → ∃ w, cl.terms.window = some w ∧ 1 ≤ k.count ∧ k.count < w.confirm

/-- Every claim is lawful, the claims on one channel name one range (R7), and at most two channels are
priority channels (R17). -/
def ClaimTable.Lawful (ct : ClaimTable) : Prop :=
  (∀ p c cl, ct.get p c = some cl → cl.Lawful) ∧
    (∀ p q c x y, ct.get p c = some x → ct.get q c = some y → x.terms.range = y.terms.range) ∧
    ct.priorityChannels ≤ 2

/-- Claims belong to open sessions, open sessions have a pace, and while there is a claim the reserve is
within the budget of the effective round interval (R14). -/
def State.BudgetKept (s : State) : Prop :=
  (∀ p c, (s.claimOf p c).isSome = true → s.sessionOpen p = true) ∧
    (∀ p, s.sessionOpen p = true → (s.sessionOf p).pace.isSome = true) ∧
    (s.claims.isEmpty = false → withinBudget s.claims.reserve s.effectiveInterval = true)

/-- A plan slot is in flight (Table 3-2). -/
def State.planInFlight (s : State) : Prop :=
  ∃ w n, s.conv.work = some w ∧ w.kind = .plan n

/-- The Scheduler's states agree with its fields and with the Converter: BUSY in a round (R48), plan slots
only in a round, nothing left in STOPPED (2.2), ticks lost only while LATE (R33) and at most 255, and start
pending only in STOPPED with work in flight (R30). -/
def State.SchedulerLawful (s : State) : Prop :=
  (s.sched.inRound = true → s.conv.work.isSome = true) ∧
    (s.planInFlight → s.sched.inRound = true) ∧
    (s.sched.state = .stopped →
      (∀ c, s.sched.plan.get c = none) ∧ s.sched.slots = [] ∧ s.sched.snapshotInterval = none ∧
        s.sched.pacingTimer = none) ∧
    (s.sched.state ≠ .late → s.sched.ticksLost = 0) ∧ s.sched.ticksLost ≤ 255 ∧
    (s.sched.startPending = true → s.sched.state = .stopped ∧ s.conv.work.isSome = true)

/-- An IDLE Converter leaves no interstitial work untaken (R48, R52). -/
def State.IdleAtRest (s : State) : Prop :=
  s.conv.work = none → s.interstitialEligible = false

/-- Outside STOPPED there is a snapshot interval and the pacing timer runs (2.2, R28, R46). -/
def State.RoundsPaced (s : State) : Prop :=
  s.sched.state ≠ .stopped →
    s.sched.snapshotInterval.isSome = true ∧ s.sched.pacingTimer.isSome = true

/-- A plan profile serves the terms of a claim: its range, a resolution at least the claim's, a period that
divides the claim's, and priority if the claim has it (R5, R6, R65). -/
def Profile.Serves (f : Profile) (t : ClaimTerms) : Prop :=
  f.range = t.range ∧ resolutionBits t.resolution ≤ resolutionBits f.resolution ∧
    periodRounds f.period ∣ periodRounds t.period ∧ (t.priority = true → f.priority = true)

/-- The plan serves every ACTIVE claim (R5, R65), and the slot list and a plan slot in flight have their
channel's plan profile (R38, R49). -/
def State.PlanServes (s : State) : Prop :=
  (∀ p c cl, s.claimOf p c = some cl → cl.state = .active →
      ∃ e, s.sched.plan.get c = some e ∧ e.profile.Serves cl.terms) ∧
    (∀ sl ∈ s.sched.slots, ∃ e, s.sched.plan.get sl.channel = some e ∧ e.profile = sl.profile) ∧
    ∀ w n, s.conv.work = some w → w.kind = .plan n →
      ∃ e, s.sched.plan.get w.channel = some e ∧ e.profile.range = w.range ∧
        e.profile.resolution = w.resolution ∧ e.profile.hold = w.hold

/-- A conversion in flight ends its cost after its start, and a capture conversion is in HOLD (R56). -/
def State.WorkTimed (s : State) : Prop :=
  ∀ w, s.conv.work = some w →
    w.finish = w.start + cost w.resolution w.hold ∧ ((∃ tag pos, w.kind = .capture tag pos) → w.hold = .hold)

/-- At most 6 entries, at most 2 of one session, each under an open session (R67). -/
def State.DemandsLimited (s : State) : Prop :=
  s.demand.entries.length ≤ 6 ∧ (∀ p, s.demand.countOf p ≤ 2) ∧
    ∀ d ∈ s.demand.entries, s.sessionOpen d.session = true

/-- The tags of outstanding demands are distinct (R69), in a queue of at most 6 entries. -/
def State.DemandTagsDistinct (s : State) : Prop :=
  s.demand.entries.length ≤ 6 ∧ s.outstandingTags.Nodup

/-- The bank agrees with the capture list: FREE only over an empty list (R81), else the bank capture is the
head unless cancelled (5.1), with a value slot for each of its items. -/
def CaptureBank.Agrees (b : CaptureBank) : Prop :=
  match b.bank with
  | .free => b.list = []
  | .armed cp _ => b.list.head? = some cp
  | .holding cp cancelled _ values =>
    values.length = cp.items.length ∧ (cancelled = false → b.list.head? = some cp)

/-- Every value slot of a bank capture that is taken carries DROOP exactly if its conversion started more
than 250 µs after the sample instant, and one not taken does not (R88). -/
def Bank.DroopJudged : Bank → Prop
  | .free => True
  | .armed _ _ => True
  | .holding _ _ sampled values =>
    ∀ v ∈ values,
      match v.start with
      | some t => v.droop = decide (sampled + 250000 < t)
      | none => v.droop = false

/-- At most 3 captures, at most one of one session, each under an open session, and the bank agrees with
the list (R77, R81). -/
def State.CapturesLawful (s : State) : Prop :=
  s.capture.list.length ≤ 3 ∧ (s.capture.list.map (·.session)).Nodup ∧
    (∀ cp ∈ s.capture.list, s.sessionOpen cp.session = true) ∧ s.capture.Agrees

/-- A capture entry is as Table 5-1 has it: 1–8 items of distinct channels, and an arm timeout of 1–10,000 ms
exactly for a line trigger (R78). -/
def Capture.Lawful (cp : Capture) : Prop :=
  1 ≤ cp.items.length ∧ cp.items.length ≤ 8 ∧ (cp.items.map (·.channel)).Nodup ∧
    (cp.trigger = .immediate → cp.armTimeout = none) ∧
    (cp.trigger ≠ .immediate → ∃ ms, cp.armTimeout = some ms ∧ 1 ≤ ms ∧ ms ≤ 10000)

/-- The work of a capture conversion is the conversion of one item of a HOLDING bank's capture, whose value slot
was taken at the work's start instant and is not done (R87, R91). -/
def State.WorkOfBank (s : State) (w : Work) (tag : Tag) (pos : Nat) : Prop :=
  ∃ cp cancelled sampled values v it,
    s.capture.bank = .holding cp cancelled sampled values ∧ cp.tag = tag ∧
      values[pos]? = some v ∧ v.start = some w.start ∧ v.result = none ∧ cp.items[pos]? = some it ∧
      w.channel = it.channel ∧ w.range = it.range ∧ w.resolution = cp.resolution

/-- The bank is served to its end (Table 5-3): every capture in the list or HOLDING is lawful; a capture
conversion in flight is the bank capture's; a cancelled bank capture has one in flight (R91, R92); only a taken
slot is done; and a capture that is not cancelled has a slot not done, each one not taken or in flight, so that
its last completion frees the bank (R87, R89, R90). -/
def State.BankServed (s : State) : Prop :=
  s.capture.extraEdges ≤ 255 ∧ (∀ cp ∈ s.capture.list, cp.Lawful) ∧
    (∀ w tag pos, s.conv.work = some w → w.kind = .capture tag pos → s.WorkOfBank w tag pos) ∧
    ∀ cp cancelled sampled values, s.capture.bank = .holding cp cancelled sampled values →
      cp.Lawful ∧ (cancelled = true → s.captureInFlight cp.tag = true) ∧
        (∀ v ∈ values, v.result ≠ none → v.start ≠ none) ∧
        (cancelled = false →
          (∃ v ∈ values, v.result = none) ∧
            ∀ (pos : Nat) v, values[pos]? = some v → v.start ≠ none → v.result = none →
              ∃ w, s.conv.work = some w ∧ w.kind = .capture cp.tag pos)

/-- Every record in a result queue is of a size that a GET_RESULTS reply can carry: at most that of a CAPTURE
record of 8 values (Table 10-13). -/
def State.RecordsFit (s : State) : Prop :=
  ∀ p, ∀ r ∈ (s.resultsOf p).records, r.bytes.length ≤ 39

/-- The other blocks hold nothing under a session (R128). -/
def State.HoldsNothing (s : State) (p : Port) : Prop :=
  (∀ c, s.claimOf p c = none) ∧ (∀ d ∈ s.demand.entries, d.session ≠ p) ∧
    (∀ cp ∈ s.capture.list, cp.session ≠ p) ∧ (s.resultsOf p).records = [] ∧
    (s.resultsOf p).lapsed = false ∧ (s.resultsOf p).lost = 0 ∧ (s.eventsOf p).events = [] ∧
    (s.eventsOf p).lost = false ∧ s.capture.lastFinished.get p = none ∧
    ∀ c e, s.sched.plan.get c = some e → e.holders.get p = false

/-- A demand in flight whose requester is not gone belongs to an open session (R59). -/
def State.RequesterOpen (s : State) : Prop :=
  ∀ w tag p, s.conv.work = some w → w.kind = .demand tag p false → s.sessionOpen p = true

/-- The other blocks hold nothing under a CLOSED session, and the captures and the demand in flight keep
their own laws (R128). -/
def State.ClosedHoldNothing (s : State) : Prop :=
  s.CapturesLawful ∧ s.RequesterOpen ∧ ∀ p, s.sessionOpen p = false → s.HoldsNothing p

/-- At most 32 records, a lost count that is non-zero exactly while LAPSED and at most 65,535 (R101), and a
watermark of 1–32 (R110). -/
def ResultQueue.Bounded (q : ResultQueue) : Prop :=
  q.records.length ≤ 32 ∧ (q.lapsed = true ↔ q.lost ≠ 0) ∧ q.lost ≤ 65535 ∧ 1 ≤ q.watermark ∧
    q.watermark ≤ 32

/-- Every result queue keeps its bounds. -/
def State.ResultsBounded (s : State) : Prop :=
  ∀ p, (s.resultsOf p).Bounded

/-- At most 8 events (R120), and the event-lost mark never set over an empty queue (R121). -/
def EventQueue.Bounded (q : EventQueue) : Prop :=
  q.events.length ≤ 8 ∧ (q.lost = true → q.events ≠ [])

/-- Every event queue keeps its bounds. -/
def State.EventsBounded (s : State) : Prop :=
  ∀ p, (s.eventsOf p).Bounded

/-- An open session has a pace, a lease and a running lease timer and shows neither flag; a CLOSED one has
its timer stopped; the flags are never set together (R128, R138). -/
def Session.Lawful (r : Session) : Prop :=
  (r.isOpen = true →
    r.pace.isSome = true ∧ r.lease.isSome = true ∧ r.leaseTimer.isSome = true ∧ r.expired = false ∧
      r.resetSeen = false) ∧
    (r.isOpen = false → r.leaseTimer = none) ∧ ¬(r.expired = true ∧ r.resetSeen = true)

/-- Every session record is lawful. -/
def State.SessionsLawful (s : State) : Prop :=
  ∀ p, (s.sessionOf p).Lawful

/-- A port with a request EXECUTING has an EMPTY reply slot (R140). -/
def State.SlotsExclusive (s : State) : Prop :=
  ∀ p, (s.portOf p).request.isSome = true → (s.portOf p).reply = none

/-- The remembered frame is the one executing, or else the last-reply copy is its reply, as far as kind and
sequence tell (R151). -/
def HostPort.MemoryAnswered (h : HostPort) : Prop :=
  ∀ m, h.memory = some m →
    match h.request with
    | some f => f.remembered = m
    | none => ∃ r, h.lastReply = some r ∧ r.kind = m.kind ∧ r.sequence.setWidth 4 = m.sequence

/-- Every port's retransmission memory names the frame its copy answers (R151), with its slots exclusive. -/
def State.MemoriesAnswered (s : State) : Prop :=
  s.SlotsExclusive ∧ ∀ p, (s.portOf p).MemoryAnswered

/-! ### Asking and answering -/

/-- Port `p` holds the frame `f` of kind `k` as EXECUTING, and the checks before its fields pass: the
session the kind needs is open and the length is the kind's (R161 checks 1 to 3). -/
def State.Asks (s : State) (p : Port) (f : Frame) (k : Kind) : Prop :=
  (s.portOf p).request = some f ∧ kindOf f.kind = some k ∧
    (k.needsSession = true → (s.sessionOf p).isOpen = true) ∧ lengthFits k f.payload = true

/-- The claim a CLAIM puts in the table (R3). -/
def pendingClaim (t : ClaimTerms) : Claim where
  terms := t
  state := .pending
  gap := 0
  windowState := .unknown
  candidate := none

/-- The candidate table of a CLAIM (R16). -/
def State.candidateTable (s : State) (p : Port) (rq : ClaimRequest) : ClaimTable :=
  s.claims.set p rq.channel (some (pendingClaim rq.terms))

/-- No claim of another session on the channel names another range (R17 check 1). -/
def State.SameRange (s : State) (p : Port) (rq : ClaimRequest) : Prop :=
  ∀ q cl, q ≠ p → s.claimOf q rq.channel = some cl → cl.terms.range = rq.terms.range

/-- A CLAIM passes the three checks of R17. -/
def State.Admits (s : State) (p : Port) (rq : ClaimRequest) : Prop :=
  s.SameRange p rq ∧ (s.candidateTable p rq).priorityChannels ≤ 2 ∧
    ∃ i, intervalOf s.sessions (s.candidateTable p rq) = some i ∧
      (s.candidateTable p rq).reserve ≤ i * 875

/-- A channel that a READ_NOW or a CAPTURE may name with a range: free, or of that range (R68, R78). -/
def State.TakesRange (s : State) (c : Channel) (r : Range) : Prop :=
  ∀ f, s.profile c = some f → f.range = r

/-- The Host Ports with port `p` answered: its request slot EMPTY, and a reply READY that is the last-reply
copy, with the frame's kind and sequence byte, a status code and a payload (R150). -/
def State.answered (s : State) (p : Port) (f : Frame) (st : Byte) (payload : List Byte) :
    PerPort HostPort :=
  s.ports.set p
    { s.portOf p with
      request := none
      reply := some ⟨f.kind, f.sequence, st, payload⟩
      lastReply := some ⟨f.kind, f.sequence, st, payload⟩ }

/-- The port of a command that one port's host sends, with the kind of the request it takes. -/
def requestOf : Instr → Option (Port × Kind)
  | .openSession _ p => some (p, .openKind)
  | .closeSession _ p => some (p, .close)
  | .linkReset _ p => some (p, .linkReset)
  | .status p => some (p, .status)
  | .setPace p => some (p, .setPace)
  | .claim _ p => some (p, .claim)
  | .release p => some (p, .release)
  | .readNow _ p => some (p, .readNow)
  | .capture _ p => some (p, .capture)
  | .cancelCapture _ p => some (p, .cancelCapture)
  | .getResults p => some (p, .getResults)
  | .resume p => some (p, .resume)
  | .readTable p => some (p, .readTable)
  | .setWatermark p => some (p, .setWatermark)
  | .getEvents p => some (p, .getEvents)
  | .repeatBadLength p => some (p, .repeatKind)
  | .selectAssert _ => none
  | .selectRelease _ _ _ => none
  | .unknownKind _ => none
  | .powerOn => none
  | .rstn => none
  | .pacingTick => none
  | .conversionComplete => none
  | .triggerEdge _ _ _ => none
  | .armTimeout => none
  | .leaseExpiry _ => none
  | .rstnRelease => none

/-- The one port a command is of: the port of a selection, of a request or of a lease; none for the
happenings of the shared blocks and the resets. -/
def portOfCommand : Instr → Option Port
  | .selectAssert p => some p
  | .selectRelease _ p _ => some p
  | .unknownKind p => some p
  | .leaseExpiry p => some p
  | .powerOn => none
  | .rstn => none
  | .rstnRelease => none
  | .pacingTick => none
  | .conversionComplete => none
  | .triggerEdge _ _ _ => none
  | .armTimeout => none
  | i => (requestOf i).map (·.1)

/-- Whether a payload's fields hold valid values for its kind (R161 check 4). -/
def fieldsValid (k : Kind) (payload : List Byte) : Bool :=
  match k with
  | .openKind => (readOpen payload).isSome
  | .close => (readNothing payload).isSome
  | .linkReset => (readNothing payload).isSome
  | .status => (readNothing payload).isSome
  | .repeatKind => (readNothing payload).isSome
  | .setPace => (readPace payload).isSome
  | .claim => (readClaim payload).isSome
  | .release => (readChannel payload).isSome
  | .readNow => (readReadNow payload).isSome
  | .capture => (readCapture payload).isSome
  | .cancelCapture => (readTag payload).isSome
  | .getResults => (readUpTo32 payload).isSome
  | .resume => (readNothing payload).isSome
  | .readTable => (readMask payload).isSome
  | .setWatermark => (readUpTo32 payload).isSome
  | .getEvents => (readUpTo8 payload).isSome

/-- The length Table 10-6 gives for a kind; a CAPTURE's follows its channel count (R162), and no length
makes a REPEAT pass (R161). -/
def tableLength (k : Kind) (payload : List Byte) : Option Nat :=
  match k with
  | .openKind => some 5
  | .close => some 0
  | .linkReset => some 0
  | .status => some 0
  | .repeatKind => none
  | .setPace => some 2
  | .claim => some 13
  | .release => some 1
  | .readNow => some 4
  | .capture => (payload.head?).map fun c => 5 + 2 * c.toNat
  | .cancelCapture => some 1
  | .getResults => some 1
  | .resume => some 0
  | .readTable => some 2
  | .setWatermark => some 1
  | .getEvents => some 1

/-! ### Rounds -/

/-- The priority channels of a plan, ascending (R38). -/
def planPriority (plan : Plan) : List Channel :=
  allChannels.filter fun c => (plan.get c).any fun e => e.profile.priority

/-- The due normal channels of a plan in a round, ascending (R36, R38). -/
def planDueNormal (plan : Plan) (r : RoundNumber) : List Channel :=
  allChannels.filter fun c =>
    (plan.get c).any fun e =>
      !e.profile.priority &&
        decide (r.toNat % periodRounds e.profile.period = c.val % periodRounds e.profile.period)

/-- The PROFILE_CHANGED event a boundary hands a session about a channel, if any (R34). -/
def State.profileChangeFor (s : State) (p : Port) (c : Channel) : Option Event :=
  match s.sched.plan.get c, s.profile c with
  | some e, some f =>
    if e.profile ≠ f ∧ e.holders.get p = true ∧ (s.claimOf p c).isSome = true then
      some (.profileChanged c f.resolution f.hold f.period f.priority)
    else none
  | _, _ => none

/-- The PACE_CHANGED event a boundary hands a session, if any (R34). -/
def State.paceChangeFor (s : State) (p : Port) : List Event :=
  match s.sched.snapshotInterval, s.effectiveInterval with
  | some x, some y => if x ≠ y ∧ s.claims.holdsClaim p = true then [.paceChanged y] else []
  | _, _ => []

/-- The change events a boundary hands a session, in order (R34). -/
def State.changesFor (s : State) (p : Port) : List Event :=
  allChannels.filterMap (s.profileChangeFor p) ++ s.paceChangeFor p

/-- The ROUND_SLIP a late round hands a session when it finishes, if any (R29). -/
def State.slipFor (s : State) (p : Port) : List Event :=
  if s.claims.holdsClaim p then [.roundSlip s.roundNow s.sched.ticksLost] else []

/-! ### Plan completions -/

/-- The claim of a session that receives the plan conversion `w`, if it has one (R63). -/
def State.receiver (s : State) (p : Port) (w : Work) : Option Claim :=
  (s.claimOf p w.channel).filter fun cl => cl.receives w.channel s.roundNow

/-- The value the plan conversion `w` gives a claim (R64). -/
def State.valueFor (s : State) (w : Work) (cl : Claim) : Int :=
  reduceCode (s.workCode w) w.resolution cl.terms.resolution

/-- The WINDOW event the plan conversion `w` hands a session, if any (R118). -/
def State.windowEventFor (s : State) (p : Port) (w : Work) : List Event :=
  match s.receiver p w with
  | some cl => (cl.windowEvent w.channel (s.valueFor w cl) s.roundNow).toList
  | none => []

/-- The PLAN record of the plan conversion `w` of a slot under a claim (R64). -/
def State.planRecordFor (s : State) (w : Work) (slot : Nat) (cl : Claim) : Record :=
  .plan w.channel (s.valueFor w cl) cl.terms.resolution s.roundNow slot cl.gap cl.terms.priority
    (s.workClip w)

/-- A session's result queue after the plan conversion `w` of a slot (R64, R103). -/
def State.queueAfter (s : State) (p : Port) (w : Work) (slot : Nat) : ResultQueue :=
  match s.receiver p w with
  | some cl =>
    match cl.terms.delivery with
    | .stream => (s.resultsOf p).handRecord (s.planRecordFor w slot cl)
    | .tableOnly => s.resultsOf p
  | none => s.resultsOf p

/-- A receiving claim after the plan conversion `w`: its window fields as the evaluation leaves them, and
its gap count 0 if a PLAN record under it was appended (R55, R117). -/
def State.claimAfter (s : State) (p : Port) (w : Work) (cl : Claim) : Claim :=
  { cl with
    windowState := (cl.watch (s.valueFor w cl)).state
    candidate := (cl.watch (s.valueFor w cl)).candidate
    gap := if cl.terms.delivery = .stream ∧ (s.resultsOf p).accepts = true then 0 else cl.gap }

/-! ### Frames on the link -/

/-- A request frame as its bytes are shifted in (R142, R158). -/
def Frame.bytes (f : Frame) : List Byte :=
  f.kind :: f.sequence :: u8 f.payload.length :: f.payload ++ u16 f.crc.toNat

/-- A request frame as its bits are shifted in (R157). -/
def Frame.bits (f : Frame) : List Bool :=
  f.bytes.flatMap bitsOfByte

/-- A port after steps 1 and 2 of a release, with `n` bits shifted: DROPPED cleared if its status byte was
shown whole, the reply removed if it was shown and fetched whole (R143, R146). A reply frame with L payload
bytes is L + 6 bytes long (R158). -/
def HostPort.settled (h : HostPort) (sel : Selection) (n : Nat) : HostPort :=
  { h with
    dropped := h.dropped && !(sel.status.getLsbD 2 && decide (8 ≤ n))
    reply := h.reply.filter fun r => !(sel.replyShown && decide (8 + 8 * (r.payload.length + 6) ≤ n)) }

/-- The session records with the lease timer of port `p` restarted at `t`, if its session is OPEN (R131). -/
def State.leaseRestarted (s : State) (p : Port) (t : Nat) : PerPort Session :=
  if (s.sessionOf p).isOpen then
    s.sessions.set p
      { s.sessionOf p with leaseTimer := (s.sessionOf p).lease.map fun l => t + l * 1000000 }
  else s.sessions

/-! ### Bytes of a reply -/

/-- The byte of a payload at an offset, as a number. -/
def byteAt (l : List Byte) (k : Nat) : Nat :=
  (l.getD k 0).toNat

/-- The two-byte number of a payload at an offset (R157). -/
def wordAt (l : List Byte) (k : Nat) : Nat :=
  byteAt l k * 256 + byteAt l (k + 1)

/-- The four-byte number of a payload at an offset (R157). -/
def longAt (l : List Byte) (k : Nat) : Nat :=
  wordAt l k * 65536 + wordAt l (k + 2)

/-- The 16-bit two's-complement number of a payload at an offset (R157). -/
def codeAt (l : List Byte) (k : Nat) : Int :=
  if wordAt l k < 32768 then wordAt l k else (wordAt l k : Int) - 65536

/-- The codes that 16 bits of two's complement hold (R157). -/
def FitsCode (v : Int) : Prop :=
  -32768 ≤ v ∧ v ≤ 32767

/-! ### Request payloads (10.5) -/

/-- The payload is an OPEN's with these fields, all valid (Table 10-7). -/
def OpenRequest.LaidOut (rq : OpenRequest) (l : List Byte) : Prop :=
  l.length = 5 ∧ wordAt l 0 = rq.pace ∧ 20 ≤ rq.pace ∧ rq.pace ≤ 65535 ∧ wordAt l 2 = rq.lease ∧
    10 ≤ rq.lease ∧ rq.lease ≤ 60000 ∧ byteAt l 4 = rq.watermark ∧ rq.watermark ≤ 32

/-- The window a CLAIM payload names: none while bit 0 of its flags is 0, else with the bounds that bits 1
and 2 say are present (Table 10-8). -/
def windowAt (l : List Byte) : Option Window :=
  if byteAt l 7 % 2 = 1 then
    some
      { lower := if byteAt l 7 / 2 % 2 = 1 then some (codeAt l 8) else none
        upper := if byteAt l 7 / 4 % 2 = 1 then some (codeAt l 10) else none
        confirm := byteAt l 12 }
  else none

/-- None of the five grounds of R15 holds of a claim's terms. -/
def ClaimTerms.Accepted (t : ClaimTerms) : Prop :=
  (t.priority = true → t.period = .p1) ∧
    ∀ w, t.window = some w →
      (w.lower ≠ none ∨ w.upper ≠ none) ∧
        (∀ b, w.lower = some b ∨ w.upper = some b → inCodeSpace t.range t.resolution b = true) ∧
        (∀ a b, w.lower = some a → w.upper = some b → a ≤ b) ∧ 1 ≤ w.confirm ∧ w.confirm ≤ 4

/-- The payload is a CLAIM's with these fields, all valid (Table 10-8, R15). -/
def ClaimRequest.LaidOut (rq : ClaimRequest) (l : List Byte) : Prop :=
  l.length = 13 ∧ byteAt l 0 = rq.channel.val ∧ byteAt l 1 = rangeCode rq.terms.range ∧
    byteAt l 2 = resolutionBits rq.terms.resolution ∧ byteAt l 3 = holdCode rq.terms.hold ∧
    byteAt l 4 = periodRounds rq.terms.period ∧
    byteAt l 5 = (if rq.terms.priority then 1 else 0) ∧
    byteAt l 6 = (if rq.terms.delivery = .tableOnly then 1 else 0) ∧ rq.terms.window = windowAt l ∧
    rq.terms.Accepted

/-- The payload is a READ_NOW's with these fields, all valid (Table 10-9). -/
def ReadNowRequest.LaidOut (rq : ReadNowRequest) (l : List Byte) : Prop :=
  l.length = 4 ∧ byteAt l 0 = rq.channel.val ∧ byteAt l 1 = rangeCode rq.range ∧
    byteAt l 2 = resolutionBits rq.resolution ∧ byteAt l 3 = holdCode rq.hold

/-- The payload is a CAPTURE's with these fields, all valid; the arm timeout is not examined for IMMEDIATE
(Table 10-9, R78, R162). -/
def CaptureRequest.LaidOut (rq : CaptureRequest) (l : List Byte) : Prop :=
  l.length = 5 + 2 * rq.items.length ∧ byteAt l 0 = rq.items.length ∧ 1 ≤ rq.items.length ∧
    rq.items.length ≤ 8 ∧ byteAt l 1 = resolutionBits rq.resolution ∧
    byteAt l 2 = triggerCode rq.trigger ∧ (rq.trigger = .immediate → rq.armTimeout = none) ∧
    (rq.trigger ≠ .immediate →
      rq.armTimeout = some (wordAt l 3) ∧ 1 ≤ wordAt l 3 ∧ wordAt l 3 ≤ 10000) ∧
    (∀ (k : Nat) it, rq.items[k]? = some it →
      byteAt l (5 + 2 * k) = it.channel.val ∧ byteAt l (6 + 2 * k) = rangeCode it.range) ∧
    (rq.items.map (·.channel)).Nodup

/-! ### What replies carry (10.6 to 10.8) -/

/-- The bytes are a READ_TABLE entry of a channel (Table 10-12). -/
def TableEntry.LaidOut (e : TableEntry) (c : Channel) (l : List Byte) : Prop :=
  l.length = 7 ∧ byteAt l 0 = c.val ∧
    byteAt l 1 =
      (if e.valid then 1 else 0) + (if e.source = .demand then 2 else 0) + (if e.stale then 4 else 0) +
        (if e.clip then 8 else 0) ∧
    (FitsCode e.value → codeAt l 2 = e.value) ∧ byteAt l 4 = resolutionBits e.resolution ∧
    wordAt l 5 = e.round.toNat

/-- The bytes are a record of a GET_RESULTS reply (Table 10-13). -/
def Record.LaidOut (l : List Byte) : Record → Prop
  | .plan c v res r slot gap prio clip =>
    l.length = 9 ∧ byteAt l 0 = 1 ∧ byteAt l 1 = c.val ∧ (FitsCode v → codeAt l 2 = v) ∧
      byteAt l 4 = resolutionBits res ∧ wordAt l 5 = r.toNat ∧ (slot ≤ 255 → byteAt l 7 = slot) ∧
      (gap ≤ 15 → byteAt l 8 = gap + (if prio then 16 else 0) + (if clip then 32 else 0))
  | .demand tag c v res r clip =>
    l.length = 9 ∧ byteAt l 0 = 2 ∧ byteAt l 1 = tag.toNat ∧ byteAt l 2 = c.val ∧
      (FitsCode v → codeAt l 3 = v) ∧ byteAt l 5 = resolutionBits res ∧ wordAt l 6 = r.toNat ∧
      byteAt l 8 = (if clip then 1 else 0)
  | .capture tag trig r extra values =>
    l.length = 7 + 4 * values.length ∧ byteAt l 0 = 3 ∧ byteAt l 1 = tag.toNat ∧
      byteAt l 2 = triggerCode trig ∧ wordAt l 3 = r.toNat ∧ (extra ≤ 255 → byteAt l 5 = extra) ∧
      (values.length ≤ 255 → byteAt l 6 = values.length) ∧
      ∀ (k : Nat) v, values[k]? = some v →
        byteAt l (7 + 4 * k) = v.channel.val ∧ (FitsCode v.value → codeAt l (8 + 4 * k) = v.value) ∧
          byteAt l (10 + 4 * k) = (if v.droop then 1 else 0) + (if v.clip then 2 else 0)

/-- The bytes are an event of a GET_EVENTS reply, spare bytes 0 (Table 10-14). -/
def Event.LaidOut (l : List Byte) : Event → Prop
  | .window c old new v r =>
    l.length = 8 ∧ byteAt l 0 = 1 ∧ byteAt l 1 = c.val ∧ byteAt l 2 = windowStateCode old ∧
      byteAt l 3 = windowStateCode new ∧ (FitsCode v → codeAt l 4 = v) ∧ wordAt l 6 = r.toNat
  | .roundSlip r ticks =>
    l.length = 8 ∧ byteAt l 0 = 2 ∧ wordAt l 1 = r.toNat ∧ (ticks ≤ 255 → byteAt l 3 = ticks) ∧
      l.drop 4 = [0, 0, 0, 0]
  | .captureTimeout tag =>
    l.length = 8 ∧ byteAt l 0 = 3 ∧ byteAt l 1 = tag.toNat ∧ l.drop 2 = [0, 0, 0, 0, 0, 0]
  | .profileChanged c res h per prio =>
    l.length = 8 ∧ byteAt l 0 = 4 ∧ byteAt l 1 = c.val ∧ byteAt l 2 = resolutionBits res ∧
      byteAt l 3 = holdCode h ∧ byteAt l 4 = periodRounds per ∧
      byteAt l 5 = (if prio then 1 else 0) ∧ l.drop 6 = [0, 0]
  | .paceChanged i =>
    l.length = 8 ∧ byteAt l 0 = 5 ∧ (i ≤ 65535 → wordAt l 1 = i) ∧ l.drop 3 = [0, 0, 0, 0, 0]

/-- The bytes that a selection shifts out after its status byte for a reply of at most 240 payload bytes:
the reply frame with its length and its CRC, then fill bytes of 0 (R141, R158). -/
def Reply.ShiftedOut (r : Reply) (out : Nat → Byte) : Prop :=
  let n := r.payload.length
  out 1 = r.kind ∧ out 2 = r.sequence ∧ out 3 = r.status ∧ (out 4).toNat = n ∧
    (∀ k x, r.payload[k]? = some x → out (5 + k) = x) ∧
    (out (5 + n)).toNat * 256 + (out (6 + n)).toNat =
      (crc16 (r.kind :: r.sequence :: r.status :: out 4 :: r.payload)).toNat ∧
    ∀ k, 7 + n ≤ k → out k = 0

end Sys2Proof.Machine
end

