-- ==== Sys2Proof/Certificates/Slice0/Obligations.lean ====
section
/-! DEFINITION. The statements for the provers, block by block in the manual's order. Where a statement says
what a command leaves as a state `{ s with … }`, every field not named is as it was: that is its frame. -/

open Sys2Proof Sys2Proof.Machine

/-! ### The queue of commands, and the part as a whole -/

/-- A step runs the command at the front of the queue on the state with the queue's rest. That an empty
queue idles is the model's choice (log entry 6). -/
def Obligations.StepRunsFrontCommand : Prop :=
  (∀ (s : State) c rest, s.pending = c :: rest → step s = exec c { s with pending := rest }) ∧
    ∀ s : State, s.pending = [] → step s = .next s

/-- Every command completes in every state, and leaves the waiting commands and the world's analog levels
alone. That commands which cannot happen leave the state as it is is the model's choice (log entry 4). -/
def Obligations.EveryCommandCompletes : Prop :=
  ∀ (c : Instr) (s : State), ∃ t, exec c s = .next t ∧ t.pending = s.pending ∧ t.analog = s.analog

/-- The part right after power-on keeps every law of its blocks. -/
def Obligations.ResetKeepsTheLaws : Prop :=
  State.reset.BudgetKept ∧ State.reset.claims.Lawful ∧ State.reset.SchedulerLawful ∧
    State.reset.IdleAtRest ∧ State.reset.RoundsPaced ∧ State.reset.PlanServes ∧
    State.reset.WorkTimed ∧ State.reset.DemandsLimited ∧ State.reset.DemandTagsDistinct ∧
    State.reset.CapturesLawful ∧ State.reset.capture.bank.DroopJudged ∧
    State.reset.BankServed ∧ State.reset.RecordsFit ∧
    State.reset.ResultsBounded ∧ State.reset.EventsBounded ∧ State.reset.ClosedHoldNothing ∧
    State.reset.SessionsLawful ∧ State.reset.MemoriesAnswered

/-- POWER_ON and RSTN reset every block; RSTN keeps the epochs, and its release lets selections be taken
(R24, R47, R66, R76, R96, R113, R127, R139, R155). That POWER_ON leaves the level of RSTN, the analog levels
and the waiting commands as they are is the model's choice (log entry 5), not the manual's. -/
def Obligations.ResetsClearThePart : Prop :=
  ∀ s : State,
    exec .powerOn s =
        .next
          { State.reset with
            rstnAsserted := s.rstnAsserted
            analog := s.analog
            pending := s.pending } ∧
      exec .rstn s =
        .next
          { State.reset with
            sessions := .tabulate fun p => { Session.reset 0 with epoch := (s.sessionOf p).epoch }
            rstnAsserted := true
            analog := s.analog
            pending := s.pending } ∧
      exec .rstnRelease s = .next { s with rstnAsserted := false }

/-! ### Claims (chapter 1) -/

/-- The code space of each range and resolution (R1). -/
def Obligations.CodeSpaceOfRanges : Prop :=
  (∀ r res x, r ≠ .bipolar →
      (inCodeSpace r res x = true ↔ 0 ≤ x ∧ x ≤ 2 ^ resolutionBits res - 1)) ∧
    (∀ res x,
      inCodeSpace .bipolar res x = true ↔
        -(2 ^ (resolutionBits res - 1)) ≤ x ∧ x ≤ 2 ^ (resolutionBits res - 1) - 1) ∧
    resolutionBits .bits8 = 8 ∧ resolutionBits .bits10 = 10 ∧ resolutionBits .bits12 = 12

/-- The profile of a channel is merged from all claims on it (R6), and its current profile is that of the Claim
Table (R8). -/
def Obligations.ProfileMergesTheClaims : Prop :=
  (∀ (s : State) c, s.profile c = s.claims.profile c) ∧
    ∀ (ct : ClaimTable) (c : Channel),
      (ct.profile c = none ↔ ∀ p, ct.get p c = none) ∧
        ∀ f, ct.profile c = some f →
          (∀ p cl, ct.get p c = some cl →
            resolutionBits cl.terms.resolution ≤ resolutionBits f.resolution ∧
              (cl.terms.hold = .hold → f.hold = .hold) ∧
              periodRounds f.period ≤ periodRounds cl.terms.period ∧
              (cl.terms.priority = true → f.priority = true)) ∧
            (∃ p cl, ct.get p c = some cl ∧ cl.terms.range = f.range) ∧
            (∃ p cl, ct.get p c = some cl ∧ cl.terms.resolution = f.resolution) ∧
            (∃ p cl, ct.get p c = some cl ∧ cl.terms.hold = f.hold) ∧
            (∃ p cl, ct.get p c = some cl ∧ cl.terms.period = f.period) ∧
            ∃ p cl, ct.get p c = some cl ∧ cl.terms.priority = f.priority

/-- The costs of Table 1-3 (R9). The load is S + max(1, N) × Q over the profiles, with N normal channels of
summed cost S and priority channels of summed cost Q (R10). A channel's worst cost is the greatest among its
claims, and the reserve is U + max(1, M) × V over the worst costs, with M channels that have a claim (R11). The
load never exceeds the reserve, and removing any claims never raises the reserve (R11). -/
def Obligations.ReserveBoundsTheLoad : Prop :=
  [cost .bits8 .hold, cost .bits8 .direct, cost .bits10 .hold, cost .bits10 .direct,
      cost .bits12 .hold, cost .bits12 .direct] = [1200, 2000, 1500, 2400, 2100, 3300] ∧
    (∀ ct : ClaimTable,
      let claimed := (List.finRange 16).filter fun c => (ct.profile c).isSome
      let normal := (List.finRange 16).filter fun c => (ct.profile c).any fun f => !f.priority
      let priority := (List.finRange 16).filter fun c => (ct.profile c).any fun f => f.priority
      let costOf := fun c => (ct.profile c).elim 0 fun f => cost f.resolution f.hold
      ct.priorityChannels = priority.length ∧
        ct.load = (normal.map costOf).sum + max 1 normal.length * (priority.map costOf).sum ∧
        ct.reserve =
          (normal.map ct.worstCost).sum + max 1 claimed.length * (priority.map ct.worstCost).sum ∧
        ∀ c,
          (∀ p cl, ct.get p c = some cl →
            cost cl.terms.resolution cl.terms.hold ≤ ct.worstCost c) ∧
            ((∀ p, ct.get p c = none) → ct.worstCost c = 0) ∧
            ((∃ p, ct.get p c ≠ none) →
              ∃ p cl, ct.get p c = some cl ∧
                cost cl.terms.resolution cl.terms.hold = ct.worstCost c)) ∧
    (∀ ct : ClaimTable, ct.load ≤ ct.reserve) ∧
    ∀ ct ct' : ClaimTable,
      (∀ p c, ct'.get p c = ct.get p c ∨ ct'.get p c = none) → ct'.reserve ≤ ct.reserve

/-- A CLAIM that passes the checks of R17 over a table that is not empty puts a PENDING claim in place and
answers the next round number; nothing else changes (R3, R18). -/
def Obligations.ClaimTakenIntoTheTable : Prop :=
  ∀ (s : State) t p f rq, s.Asks p f .claim → readClaim f.payload = some rq → s.Admits p rq →
    s.claims.isEmpty = false →
      exec (.claim t p) s =
        .next
          { s with
            claims := s.claims.set p rq.channel (some (pendingClaim rq.terms))
            ports := s.answered p f 0 (u16 s.sched.nextRound.toNat) }

/-- A CLAIM taken over an empty table gives the Scheduler notice: in STOPPED it takes a boundary at once
with the Converter IDLE and sets start pending with it BUSY; in the other states the notice changes nothing.
The reply carries the next round number from before the boundary. A choice follows where the Converter is
IDLE: from a STOPPED part at rest, with the channel due, it takes the channel's slot of the new round at once
(R18, R30, R35, R49, R50). That an IDLE Converter is let choose in the other states too is the model's choice
(log entry 12); on states a run reaches it finds nothing to take (SchedulerLawful). -/
def Obligations.FirstClaimStartsARound : Prop :=
  ∀ (s : State) t p f rq, s.Asks p f .claim → readClaim f.payload = some rq → s.Admits p rq →
    s.claims.isEmpty = true →
      (s.sched.state = .stopped → s.sched.startPending = false → s.conv.work = none →
        exec (.claim t p) s =
          .next
            { ((State.boundary { s with claims := s.candidateTable p rq } t).chooseIfIdle t) with
              ports := s.answered p f 0 (u16 s.sched.nextRound.toNat) }) ∧
        (s.sched.state = .stopped → s.conv.work ≠ none →
          exec (.claim t p) s =
            .next
              { s with
                claims := s.candidateTable p rq
                sched := { s.sched with startPending := true }
                ports := s.answered p f 0 (u16 s.sched.nextRound.toNat) }) ∧
        (s.sched.state ≠ .stopped →
          exec (.claim t p) s =
            .next
              { (State.chooseIfIdle { s with claims := s.candidateTable p rq } t) with
                ports := s.answered p f 0 (u16 s.sched.nextRound.toNat) }) ∧
        (s.SchedulerLawful → s.sched.state = .stopped → s.conv.work = none →
          s.interstitialEligible = false → s.isHeld rq.channel = false →
          s.sched.nextRound.toNat % periodRounds rq.terms.period =
            rq.channel.val % periodRounds rq.terms.period →
          ∃ u : State, exec (.claim t p) s = .next u ∧
            u.sched.state = .running ∧ u.sched.currentRound = some s.sched.nextRound ∧
            u.sched.nextRound = s.sched.nextRound + 1 ∧
            u.claimOf p rq.channel = some { pendingClaim rq.terms with state := .active } ∧
            (∀ q c, (q, c) ≠ (p, rq.channel) → u.claimOf q c = none) ∧
            u.conv =
              { work :=
                  some
                    { kind := .plan 0
                      channel := rq.channel
                      range := rq.terms.range
                      resolution := rq.terms.resolution
                      hold := rq.terms.hold
                      start := t
                      finish := t + cost rq.terms.resolution rq.terms.hold }
                planMark := s.conv.planMark } ∧
            u.demand = s.demand ∧ u.capture = s.capture ∧ u.table = s.table ∧ u.results = s.results ∧
            u.events = s.events ∧ u.sessions = s.sessions ∧
            u.ports = s.answered p f 0 (u16 s.sched.nextRound.toNat) ∧ u.rstnAsserted = s.rstnAsserted)

/-- A CLAIM that fails a check of R17 is answered by the first that fails, and nothing else changes. -/
def Obligations.ClaimRefusedInOrder : Prop :=
  ∀ (s : State) t p f rq, s.Asks p f .claim → readClaim f.payload = some rq →
    (¬s.SameRange p rq → exec (.claim t p) s = .next { s with ports := s.answered p f 9 [] }) ∧
      (s.SameRange p rq → 2 < (s.candidateTable p rq).priorityChannels →
        exec (.claim t p) s = .next { s with ports := s.answered p f 11 [] }) ∧
      (s.SameRange p rq → (s.candidateTable p rq).priorityChannels ≤ 2 →
        (∀ i, intervalOf s.sessions (s.candidateTable p rq) = some i →
          i * 875 < (s.candidateTable p rq).reserve) →
        exec (.claim t p) s = .next { s with ports := s.answered p f 10 [] })

/-- RELEASE removes the session's claim on the channel at once, or is answered NOT_FOUND (R19). -/
def Obligations.ReleaseRemovesTheClaim : Prop :=
  ∀ (s : State) p f c, s.Asks p f .release → readChannel f.payload = some c →
    (s.claimOf p c ≠ none →
      exec (.release p) s =
        .next { s with claims := s.claims.set p c none, ports := s.answered p f 0 [] }) ∧
      (s.claimOf p c = none → exec (.release p) s = .next { s with ports := s.answered p f 12 [] })

/-- The effective round interval is the smallest pace among the open sessions that hold a claim, and none
without one (R13); SET_PACE by the three cases of R20, with that interval in the reply. -/
def Obligations.SetPaceByCase : Prop :=
  (∀ s : State, s.effectiveInterval = intervalOf s.sessions s.claims) ∧
    (∀ (sessions : PerPort Session) (ct : ClaimTable),
      let paced := fun p i =>
        (sessions.get p).isOpen = true ∧ ct.holdsClaim p = true ∧ (sessions.get p).pace = some i
      (∀ i, intervalOf sessions ct = some i ↔ (∃ p, paced p i) ∧ ∀ p j, paced p j → i ≤ j) ∧
        ((∀ p, ct.holdsClaim p = false) → intervalOf sessions ct = none) ∧
        (∀ p, ct.holdsClaim p = true ↔ ∃ c cl, ct.get p c = some cl) ∧
        (ct.isEmpty = true ↔ ∀ p, ct.holdsClaim p = false)) ∧
    ∀ (s : State) p f pace, s.Asks p f .setPace → readPace f.payload = some pace →
      (s.claims.holdsClaim p = false →
        exec (.setPace p) s =
          .next
            { s with
              sessions := s.sessions.set p { s.sessionOf p with pace := some pace }
              ports := s.answered p f 0 (u16 (s.effectiveInterval.getD 0)) }) ∧
        (s.claims.holdsClaim p = true → ∀ i, s.effectiveInterval = some i →
          (pace < i → s.claims.reserve ≤ pace * 875 →
            exec (.setPace p) s =
              .next
                { s with
                  sessions := s.sessions.set p { s.sessionOf p with pace := some pace }
                  ports := s.answered p f 0 (u16 pace) }) ∧
            (pace < i → pace * 875 < s.claims.reserve →
              exec (.setPace p) s = .next { s with ports := s.answered p f 10 [] }) ∧
            (i ≤ pace →
              ∃ j, i ≤ j ∧ j ≤ pace ∧
                intervalOf (s.sessions.set p { s.sessionOf p with pace := some pace }) s.claims =
                  some j ∧
                exec (.setPace p) s =
                  .next
                    { s with
                      sessions := s.sessions.set p { s.sessionOf p with pace := some pace }
                      ports := s.answered p f 0 (u16 j) }))

/-- Every step keeps claims under open sessions and the reserve within the budget, so that the load of a
table that is not empty never exceeds the budget of the effective round interval (R14). -/
def Obligations.BudgetKept : Prop :=
  ∀ s s' : State, s.BudgetKept → step s = .next s' →
    s'.BudgetKept ∧
      (s'.claims.isEmpty = false →
        ∃ i, s'.effectiveInterval = some i ∧ s'.claims.load ≤ i * 875)

/-- Every step keeps one range on a channel, at most two priority channels, gap counts of 0–15 and
candidates below their confirm counts (R7, R15, R17, R55, R117). -/
def Obligations.ClaimsLawful : Prop :=
  ∀ s s' : State, s.claims.Lawful → step s = .next s' → s'.claims.Lawful

/-! ### Rounds (chapter 2) -/

/-- A period makes a channel due in the rounds its phase names, again exactly one period later across the
wrap and not before; and every due round of a claim is one of its channel's profile (R5, R36, R37). A claim is
due exactly if it is a priority claim or its own period's phase names the round (R37), and a session's claim
receives a plan conversion exactly if it is on that channel, ACTIVE and due in the current round (R63). -/
def Obligations.DueRounds : Prop :=
  (∀ (cl : Claim) (c : Channel) (r : RoundNumber),
      (cl.due c r = true ↔
        cl.terms.priority = true ∨
          r.toNat % periodRounds cl.terms.period = c.val % periodRounds cl.terms.period) ∧
        (cl.receives c r = true ↔ cl.state = .active ∧ cl.due c r = true)) ∧
    (∀ (s : State) p w cl r, s.sched.currentRound = some r →
      (s.receiver p w = some cl ↔
        s.claimOf p w.channel = some cl ∧ cl.state = .active ∧ cl.due w.channel r = true)) ∧
    (∀ period (c : Channel) (r : RoundNumber),
      (dueInRound period c r = true ↔
        r.toNat % periodRounds period = c.val % periodRounds period) ∧
        dueInRound period c (r + BitVec.ofNat 16 (periodRounds period)) = dueInRound period c r ∧
        ∀ k, 0 < k → k < periodRounds period → dueInRound period c r = true →
          dueInRound period c (r + BitVec.ofNat 16 k) = false) ∧
    ∀ (ct : ClaimTable) p c cl f r, ct.get p c = some cl → ct.profile c = some f →
      cl.due c r = true → f.due c r = true

/-- The slots of a round: with k priority channels, each due normal channel preceded by one slot of each of
them; without a due normal channel one slot of each; every slot with its index and its plan profile (R38). -/
def Obligations.SlotListOrder : Prop :=
  ∀ (plan : Plan) (r : RoundNumber),
    let priority := planPriority plan
    let normal := planDueNormal plan r
    let k := priority.length
    (normal = [] → (slotList plan r).map (·.channel) = priority) ∧
      (normal ≠ [] →
        (slotList plan r).length = normal.length * (k + 1) ∧
          ∀ j, j < normal.length * (k + 1) →
            ((slotList plan r)[j]?).map (·.channel) =
              if j % (k + 1) < k then priority[j % (k + 1)]? else normal[j / (k + 1)]?) ∧
      ∀ (j : Nat) (sl : PlanSlot), (slotList plan r)[j]? = some sl →
        sl.index = j ∧ ∃ e, plan.get sl.channel = some e ∧ e.profile = sl.profile

/-- A tick, where the timer runs, makes a RUNNING round LATE, counts one more lost tick in a LATE one, and
takes a boundary in DONE (R28), after which an IDLE Converter is let choose. R50 names that choice where the
boundary offers slot 0; that it is let choose after a boundary that offers no slot too, into DONE or STOPPED,
is the model's choice (log entry 12). -/
def Obligations.TickByState : Prop :=
  ∀ (s : State) t i, s.sched.pacingTimer = some t → s.sched.snapshotInterval = some i →
    (s.sched.state = .running →
      exec .pacingTick s =
        .next
          { s with
            sched :=
              { s.sched with
                state := .late
                ticksLost := 0
                pacingTimer := some (t + i * 1000) } }) ∧
      (s.sched.state = .late →
        exec .pacingTick s =
          .next
            { s with
              sched :=
                { s.sched with
                  ticksLost := min (s.sched.ticksLost + 1) 255
                  pacingTimer := some (t + i * 1000) } }) ∧
      (s.sched.state = .done → exec .pacingTick s = .next ((s.boundary t).chooseIfIdle t))

/-- A boundary that finds claims: the new plan with its holders, every claim ACTIVE, the interval, timer and
round numbers, the slot list with the state it gives, and STALE on what left the plan. It leaves the
Converter, the demands, the captures, the records, the sessions and the ports alone (R27, R33, R35). -/
def Obligations.BoundaryTakesTheSnapshot : Prop :=
  ∀ (s : State) t i, s.claims.isEmpty = false → s.effectiveInterval = some i →
    let u := State.boundary s t
    (∀ p c, u.claimOf p c = (s.claimOf p c).map fun cl => { cl with state := .active }) ∧
      (∀ c, (u.sched.plan.get c).map (·.profile) = s.profile c) ∧
      (∀ c e p, u.sched.plan.get c = some e → e.holders.get p = (s.claimOf p c).isSome) ∧
      u.sched.snapshotInterval = some i ∧ u.sched.pacingTimer = some (t + i * 1000) ∧
      u.sched.currentRound = some s.sched.nextRound ∧
      u.sched.nextRound = s.sched.nextRound + 1 ∧ u.sched.slotPosition = 0 ∧
      u.sched.slots = slotList u.sched.plan s.sched.nextRound ∧
      (u.sched.slots = [] → u.sched.state = .done) ∧
      (u.sched.slots ≠ [] → u.sched.state = .running) ∧
      u.sched.ticksLost = s.sched.ticksLost ∧ u.sched.startPending = s.sched.startPending ∧
      (∀ c,
        u.table.get c =
          if (s.sched.plan.get c).isSome ∧ s.profile c = none ∧ (s.table.get c).valid = true then
            { s.table.get c with stale := true }
          else s.table.get c) ∧
      u.conv = s.conv ∧ u.demand = s.demand ∧ u.capture = s.capture ∧ u.results = s.results ∧
      u.sessions = s.sessions ∧ u.ports = s.ports ∧ u.rstnAsserted = s.rstnAsserted

/-- A boundary hands each session its PROFILE_CHANGED events, channels ascending, and then
its PACE_CHANGED event, and no session anything else (R34, R120). -/
def Obligations.BoundaryQueuesItsChangeEvents : Prop :=
  ∀ (s : State) t p,
    (State.boundary s t).eventsOf p = (s.changesFor p).foldl EventQueue.append (s.eventsOf p)

/-- A boundary that finds the Claim Table empty marks what was in the plan STALE, empties the plan and the
slot list, stops the timer and enters STOPPED; round numbers stay and no event is queued. That the slot
position returns to 0 is the model's choice (log entry 9) (R27, R32). -/
def Obligations.BoundaryOverAnEmptyTableStops : Prop :=
  ∀ (s : State) t, s.claims.isEmpty = true →
    ∃ table plan,
      State.boundary s t =
          { s with
            table := table
            sched :=
              { s.sched with
                state := .stopped
                plan := plan
                slots := []
                slotPosition := 0
                snapshotInterval := none
                pacingTimer := none } } ∧
        (∀ c, plan.get c = none) ∧
        ∀ c,
          table.get c =
            if (s.sched.plan.get c).isSome ∧ (s.table.get c).valid = true then
              { s.table.get c with stale := true }
            else s.table.get c

/-- The last slot of a LATE round: after the value is delivered, each session holding a claim is handed
ROUND_SLIP with the late round and the ticks lost, and then the boundary's change events; ticks lost returns
to 0. Over claims the boundary makes every claim ACTIVE and starts the next round from its plan, under the
next number and paced from that moment; over an empty table it stops. The entry the value wrote and every
entry of a channel that leaves the plan stand as the boundary leaves them (R29, R32, R33, R35, R41, R62). That
the slot position is 0 also over the empty table, in STOPPED, is the model's choice: R32 does not name it there
(log entry 9). -/
def Obligations.LateRoundSlips : Prop :=
  ∀ (s : State) w slot, s.conv.work = some w → w.kind = .plan slot → slot + 1 = s.sched.slots.length →
    s.sched.state = .late → s.sched.startPending = false →
      let delivered := fun p c =>
        if c = w.channel then
          match s.receiver p w with
          | some cl => some (s.claimAfter p w cl)
          | none => s.claimOf p c
        else s.claimOf p c
      let written := fun c : Channel =>
        if c = w.channel then
          (⟨true, s.workCode w, w.resolution, s.roundNow, .plan, false, s.workClip w⟩ : TableEntry)
        else s.table.get c
      ∃ v : State, exec .conversionComplete s = .next (v.choose w.finish) ∧
        v.conv = { work := none, planMark := true } ∧
        (∀ p,
          v.eventsOf p =
            (s.windowEventFor p w ++ s.slipFor p ++ s.changesFor p).foldl EventQueue.append
              (s.eventsOf p)) ∧
        (∀ p, v.resultsOf p = s.queueAfter p w slot) ∧ v.sched.ticksLost = 0 ∧
        (∀ p c, v.claimOf p c = (delivered p c).map fun cl => { cl with state := .active }) ∧
        (∀ c,
          v.table.get c =
            if (s.sched.plan.get c).isSome ∧ s.profile c = none ∧ (written c).valid = true then
              { written c with stale := true }
            else written c) ∧
        (∀ c, (v.sched.plan.get c).map (·.profile) = s.profile c) ∧
        (∀ c e p, v.sched.plan.get c = some e → e.holders.get p = (s.claimOf p c).isSome) ∧
        v.sched.slotPosition = 0 ∧ v.sched.startPending = false ∧
        (s.claims.isEmpty = false →
          v.sched.slots = slotList v.sched.plan s.sched.nextRound ∧
            v.sched.state = (if v.sched.slots = [] then .done else .running) ∧
            v.sched.currentRound = some s.sched.nextRound ∧
            v.sched.nextRound = s.sched.nextRound + 1 ∧
            v.sched.snapshotInterval = s.effectiveInterval ∧
            v.sched.pacingTimer = s.effectiveInterval.map (fun i => w.finish + i * 1000)) ∧
        (s.claims.isEmpty = true →
          v.sched.slots = [] ∧ v.sched.state = .stopped ∧
            v.sched.currentRound = s.sched.currentRound ∧ v.sched.nextRound = s.sched.nextRound ∧
            v.sched.snapshotInterval = none ∧ v.sched.pacingTimer = none) ∧
        v.demand = s.demand ∧ v.capture = s.capture ∧ v.sessions = s.sessions ∧
        v.ports = s.ports ∧ v.rstnAsserted = s.rstnAsserted

/-- Every step keeps the Scheduler's states in agreement with its fields and with the Converter: never IDLE
in a round, no plan slot in flight outside one, nothing left in STOPPED, ticks lost only in LATE
(R30, R33, R48, R52). With that, every step keeps an IDLE Converter without eligible interstitial work
(R48, R52); outside STOPPED an interval and a running timer (2.2, R46); and the plan in service of every ACTIVE
claim, so that a claim receives a slot's value in its own range, from a conversion of at least its own
resolution (R5, R65). -/
def Obligations.SchedulerLawful : Prop :=
  ∀ s s' : State, s.SchedulerLawful → step s = .next s' →
    s'.SchedulerLawful ∧ (s.IdleAtRest → s'.IdleAtRest) ∧
      (s.BudgetKept → s.RoundsPaced → s'.RoundsPaced) ∧
      (s.claims.Lawful → s.PlanServes →
        s'.PlanServes ∧
          ∀ w n p cl, s'.conv.work = some w → w.kind = .plan n → s'.receiver p w = some cl →
            cl.terms.range = w.range ∧
              resolutionBits cl.terms.resolution ≤ resolutionBits w.resolution)

/-- STATUS answers 88 bytes read from the owning blocks at that moment and changes nothing else
(R45, Table 10-11). -/
def Obligations.StatusReportsThePart : Prop :=
  ∀ (s : State) p f, s.Asks p f .status →
    ∃ l,
      exec (.status p) s = .next { s with ports := s.answered p f 0 l } ∧ l.length = 88 ∧
        byteAt l 0 = schedulerStateCode s.sched.state ∧ wordAt l 1 = s.sched.nextRound.toNat ∧
        (∀ i, s.effectiveInterval = some i → i ≤ 65535 →
          wordAt l 3 = i ∧ longAt l 15 = i * 875) ∧
        (s.effectiveInterval = none → wordAt l 3 = 0 ∧ longAt l 15 = 0) ∧
        (∀ i, s.sched.snapshotInterval = some i → i ≤ 65535 → wordAt l 5 = i) ∧
        (s.sched.snapshotInterval = none → wordAt l 5 = 0) ∧ longAt l 7 = s.claims.load ∧
        longAt l 11 = s.claims.reserve ∧
        (∀ c fl, s.profile c = some fl →
          byteAt l (19 + 4 * c.val) = rangeCode fl.range ∧
            byteAt l (20 + 4 * c.val) = resolutionBits fl.resolution ∧
            byteAt l (21 + 4 * c.val) = periodRounds fl.period ∧
            byteAt l (22 + 4 * c.val) =
              (if fl.hold = .hold then 1 else 0) + if fl.priority then 2 else 0) ∧
        (∀ c, s.profile c = none →
          byteAt l (19 + 4 * c.val) = 0 ∧ byteAt l (20 + 4 * c.val) = 0 ∧
            byteAt l (21 + 4 * c.val) = 0 ∧ byteAt l (22 + 4 * c.val) = 0) ∧
        (s.demand.entries.length ≤ 255 → byteAt l 83 = s.demand.entries.length) ∧
        (s.capture.list.length ≤ 255 → byteAt l 84 = s.capture.list.length) ∧
        byteAt l 85 = (if s.sessionOpen p then 1 else 0) ∧
        ((s.resultsOf p).records.length ≤ 255 →
          byteAt l 86 = if s.sessionOpen p then (s.resultsOf p).records.length else 0) ∧
        ((s.eventsOf p).events.length ≤ 255 →
          byteAt l 87 = if s.sessionOpen p then (s.eventsOf p).events.length else 0)

/-! ### The Converter (chapter 3) -/

/-- The code of an input is its ideal code rounded down, or the nearer end of the code space, and CLIP says
which. PLAN and DEMAND work convert the voltage on AINn at the start instant, against ground for LOW and FULL
and against AMID for BIPOLAR; CAPTURE work converts what the stage of its position holds (R57, R82). That the
voltages are free values unless the world outside has named a level is the model's choice (log entry 3). -/
def Obligations.CodeOfAVoltage : Prop :=
  (∀ (s : State) w,
      let code := fun v => s.workCode w = codeOf w.range w.resolution v ∧
        s.workClip w = clipOf w.range w.resolution v
      ((∃ n, w.kind = .plan n) ∨ (∃ tag p gone, w.kind = .demand tag p gone) →
        (w.range ≠ .bipolar → code (s.ain w.channel w.start)) ∧
          (w.range = .bipolar → code (s.ain w.channel w.start - s.amid w.start))) ∧
        ∀ tag pos cp cancelled sampled values v, w.kind = .capture tag pos →
          s.capture.bank = .holding cp cancelled sampled values → values[pos]? = some v →
            code v.stage) ∧
    (∀ (s : State) c r t,
      (r ≠ .bipolar → s.measure c r t = s.ain c t) ∧
        (r = .bipolar → s.measure c r t = s.ain c t - s.amid t) ∧
        (s.analog = [] → s.ain c t = Config.ainVoltage c t ∧ s.amid t = Config.amidVoltage t)) ∧
    ∀ r res (v : Int),
      let scaled := v * 2 ^ resolutionBits res
      let span : Int := if r = .low then 1250000000 else 2500000000
      inCodeSpace r res (codeOf r res v) = true ∧
        (clipOf r res v = false →
          codeOf r res v * span ≤ scaled ∧ scaled < (codeOf r res v + 1) * span) ∧
        (clipOf r res v = true →
          (codeOf r res v = codeMax r res ∧ (codeMax r res + 1) * span ≤ scaled) ∨
            (codeOf r res v = codeMin r res ∧ scaled < codeMin r res * span))

/-- The reduction to a lower resolution drops the low bits, rounding toward minus infinity, and stays in the
claim's code space; a difference of 0 leaves the code (R64). -/
def Obligations.ReductionDropsLowBits : Prop :=
  ∀ hi lo (x : Int), resolutionBits lo ≤ resolutionBits hi →
    reduceCode x hi lo * 2 ^ (resolutionBits hi - resolutionBits lo) ≤ x ∧
      x < (reduceCode x hi lo + 1) * 2 ^ (resolutionBits hi - resolutionBits lo) ∧
      (hi = lo → reduceCode x hi lo = x) ∧
      ∀ r, inCodeSpace r hi x = true → inCodeSpace r lo (reduceCode x hi lo) = true

/-- A plan completion that starts no round: the table entry, each receiving session's record, window event
and claim, the slot finished, the plan mark, and then the arbiter's choice (R53, R58, R62, R63, R64). -/
def Obligations.PlanCompletionDelivers : Prop :=
  ∀ (s : State) w slot, s.conv.work = some w → w.kind = .plan slot → s.sched.startPending = false →
    (slot + 1 = s.sched.slots.length → s.sched.state = .running) →
      ∃ v : State, exec .conversionComplete s = .next (v.choose w.finish) ∧
        v.conv = { work := none, planMark := true } ∧
        v.table =
          s.table.set w.channel
            ⟨true, s.workCode w, w.resolution, s.roundNow, .plan, false, s.workClip w⟩ ∧
        v.sched =
          (if slot + 1 = s.sched.slots.length then { s.sched with state := .done } else s.sched) ∧
        (∀ p, v.resultsOf p = s.queueAfter p w slot) ∧
        (∀ p, v.eventsOf p = (s.windowEventFor p w).foldl EventQueue.append (s.eventsOf p)) ∧
        (∀ p cl, s.receiver p w = some cl → v.claimOf p w.channel = some (s.claimAfter p w cl)) ∧
        (∀ p c, c ≠ w.channel ∨ s.receiver p w = none → v.claimOf p c = s.claimOf p c) ∧
        v.demand = s.demand ∧ v.capture = s.capture ∧ v.sessions = s.sessions ∧
        v.ports = s.ports ∧ v.rstnAsserted = s.rstnAsserted

/-- A demand completion replaces the table entry, hands its session a DEMAND record unless the requester is
gone, takes the deferred boundary if start is pending, clears the plan mark, and lets the arbiter choose; it
touches no claim (R31, R53, R58, R72, R73). The round of an entry or record is the current round, or 0 before
the first (R27). -/
def Obligations.DemandCompletion : Prop :=
  (∀ s : State,
      (∀ r, s.sched.currentRound = some r → s.roundNow = r) ∧
        (s.sched.currentRound = none → s.roundNow = 0)) ∧
    ∀ (s : State) w tag p gone, s.conv.work = some w → w.kind = .demand tag p gone →
      ∃ v : State,
        v =
            { s with
              table :=
                s.table.set w.channel
                  ⟨true, s.workCode w, w.resolution, s.roundNow, .demand, false, s.workClip w⟩
              results :=
                if gone then s.results
                else
                  s.results.set p
                    ((s.resultsOf p).handRecord
                      (.demand tag w.channel (s.workCode w) w.resolution s.roundNow (s.workClip w)))
              conv := { work := none, planMark := false } } ∧
          (s.sched.startPending = false →
            exec .conversionComplete s = .next (v.choose w.finish)) ∧
          (s.sched.startPending = true →
            exec .conversionComplete s =
              .next
                ((State.boundary { v with sched := { s.sched with startPending := false } }
                    w.finish).choose
                  w.finish))

/-- A capture conversion's completion: a cancelled capture frees the bank; else the value is stored, and the
last one hands over the CAPTURE record, removes the capture, makes its tag the last finished one and frees
the bank. A freed bank takes the next head; then the deferred boundary is taken if start is pending, the plan
mark is cleared, and the arbiter chooses (R31, R53, R58, R89, R90, R92). That the finished capture leaves the
list by its session is the model's choice (log entry 14); the list holds at most one of a session
(CapturesLawful). Each value of the record carries its item's channel, its code, DROOP and CLIP (Table 5-4). -/
def Obligations.CaptureConversionCompletes : Prop :=
  (∀ (it : CaptureItem) (v : ValueSlot) code clip, v.result = some (code, clip) →
      captureValue it v = ⟨it.channel, code, v.droop, clip⟩) ∧
    ∀ (s : State) w tag pos cp cancelled sampled values, s.conv.work = some w → w.kind = .capture tag pos →
      s.capture.bank = .holding cp cancelled sampled values →
        let stored :=
          values.modify pos fun v => { v with result := some (s.workCode w, s.workClip w) }
        let goOn := fun v : State =>
          if s.sched.startPending = true then
            (State.boundary { v with sched := { s.sched with startPending := false } } w.finish).choose
              w.finish
          else v.choose w.finish
        (cancelled = true →
          exec .conversionComplete s =
            .next
              (goOn
                (State.takeHead
                  { s with
                    capture := { s.capture with bank := .free }
                    conv := { work := none, planMark := false } }
                  w.finish))) ∧
          (cancelled = false → (∃ v ∈ stored, v.result = none) →
            exec .conversionComplete s =
              .next
                (goOn
                  { s with
                    capture := { s.capture with bank := .holding cp false sampled stored }
                    conv := { work := none, planMark := false } })) ∧
          (cancelled = false → (∀ v ∈ stored, v.result ≠ none) →
            exec .conversionComplete s =
              .next
                (goOn
                  (State.takeHead
                    { s with
                      capture :=
                        { s.capture with
                          list := s.capture.list.filter fun x => x.session != cp.session
                          bank := .free
                          lastFinished := s.capture.lastFinished.set cp.session (some cp.tag) }
                      results :=
                        s.results.set cp.session
                          ((s.resultsOf cp.session).handRecord
                            (.capture cp.tag cp.trigger s.roundNow s.capture.extraEdges
                              (List.zipWith captureValue cp.items stored)))
                      conv := { work := none, planMark := false } }
                    w.finish)))

/-- Outside a round the arbiter takes interstitial work: the Capture Bank's offer, otherwise the oldest
demand of a channel that is not held, otherwise nothing. The bank offers the first item of its capture's list
whose value slot is not taken, and marks that slot taken with its start instant and its DROOP; it offers none
when every slot is taken, when cancelled, and when not HOLDING (R49, R52, R56, R71, R87, R88). -/
def Obligations.ArbiterOutsideARound : Prop :=
  ∀ (s : State) t,
    (s.sched.inRound = false → s.choose t = s.takeInterstitial t) ∧
      (∀ cp pos it, s.capture.bank.offer = some (cp, pos, it) →
        s.takeInterstitial t =
          { s with
            capture := { s.capture with bank := s.capture.bank.takeValue pos t }
            conv :=
              { s.conv with
                work :=
                  some
                    { kind := .capture cp.tag pos
                      channel := it.channel
                      range := it.range
                      resolution := cp.resolution
                      hold := .hold
                      start := t
                      finish := t + cost cp.resolution .hold } } }) ∧
      (s.capture.bank.offer = none → ∀ before d after,
        s.demand.entries = before ++ d :: after →
        (∀ x ∈ before, s.isHeld x.channel = true) → s.isHeld d.channel = false →
          s.takeInterstitial t =
            { s with
              demand := { s.demand with entries := before ++ after }
              conv :=
                { s.conv with
                  work :=
                    some
                      { kind := .demand d.tag d.session false
                        channel := d.channel
                        range := d.range
                        resolution := d.resolution
                        hold := d.hold
                        start := t
                        finish := t + cost d.resolution d.hold } } }) ∧
      (s.capture.bank.offer = none → (∀ d ∈ s.demand.entries, s.isHeld d.channel = true) →
        s.takeInterstitial t = s) ∧
      (∀ cp sampled before v after it,
        s.capture.bank = .holding cp false sampled (before ++ v :: after) →
        cp.items[before.length]? = some it → (∀ x ∈ before, x.start ≠ none) → v.start = none →
          s.capture.bank.offer = some (cp, before.length, it) ∧
            s.capture.bank.takeValue before.length t =
              .holding cp false sampled
                (before ++
                  { v with start := some t, droop := decide (sampled + 250000 < t) } :: after)) ∧
      (∀ cp cancelled sampled values, s.capture.bank = .holding cp cancelled sampled values →
        cancelled = true ∨ (∀ v ∈ values, v.start ≠ none) → s.capture.bank.offer = none) ∧
      ((∀ cp cancelled sampled values, s.capture.bank ≠ .holding cp cancelled sampled values) →
        s.capture.bank.offer = none)

/-- In a round the arbiter takes interstitial work only with the plan mark yes; otherwise it turns to the
offered slot: taken if its channel is not held, else skipped without time, with the gap counts of the
channel's ACTIVE due claims raised, and then the arbiter chooses again, after the round's end if the slot
was its last (R51, R54). The finishing of a RUNNING round's last slot leaves DONE; that of a LATE round
hands each claim holder ROUND_SLIP, returns ticks lost to 0 and takes a boundary (R29). That a skip which
ends a late round raises the gap counts before the round's finishing is the model's choice (log entry 8). -/
def Obligations.ArbiterInsideARound : Prop :=
  (∀ (s : State) t,
      (s.sched.state = .running →
        s.lastSlotFinished t = { s with sched := { s.sched with state := .done } }) ∧
        (s.sched.state = .late →
          ∃ events,
            (∀ p, events.get p = (s.slipFor p).foldl EventQueue.append (s.eventsOf p)) ∧
              s.lastSlotFinished t =
                State.boundary
                  { s with events := events, sched := { s.sched with ticksLost := 0 } } t)) ∧
    ∀ (s : State) t, s.sched.inRound = true →
      (s.conv.planMark = true → s.interstitialEligible = true →
        s.choose t = s.takeInterstitial t) ∧
        ((s.conv.planMark = false ∨ s.interstitialEligible = false) → ∀ sl rest,
          s.sched.slots.drop s.sched.slotPosition = sl :: rest →
            (s.isHeld sl.channel = false →
              s.choose t =
                { s with
                  sched := { s.sched with slotPosition := s.sched.slotPosition + 1 }
                  conv :=
                    { s.conv with
                      work :=
                        some
                          { kind := .plan sl.index
                            channel := sl.channel
                            range := sl.profile.range
                            resolution := sl.profile.resolution
                            hold := sl.profile.hold
                            start := t
                            finish := t + cost sl.profile.resolution sl.profile.hold } } }) ∧
              (s.isHeld sl.channel = true →
                ∃ claims,
                  (∀ p c,
                    claims.get p c =
                      (s.claimOf p c).map fun cl =>
                        if c = sl.channel ∧ cl.state = .active ∧ cl.due c s.roundNow = true then
                          { cl with gap := min (cl.gap + 1) 15 }
                        else cl) ∧
                    (rest ≠ [] →
                      s.choose t =
                        State.choose
                          { s with
                            claims := claims
                            sched :=
                              { s.sched with slotPosition := s.sched.slotPosition + 1 } }
                          t) ∧
                    (rest = [] →
                      s.choose t =
                        (State.lastSlotFinished
                            { s with
                              claims := claims
                              sched :=
                                { s.sched with slotPosition := s.sched.slotPosition + 1 } }
                            t).choose
                          t)))

/-- No command starts a plan slot or a demand of a held channel; and inside a round interstitial work starts
at a completion only after a plan slot has completed, so no two interstitial conversions come back to back
there (R51, R53, R54, R86). The held channels are exactly those of a HOLDING bank's capture (R86). Interstitial
work is eligible exactly if the bank has an offer or a demand waits whose channel is not held (R49, R71); a
round is RUNNING or LATE; and work that turns eligible brings a choice only to an IDLE Converter (R50). -/
def Obligations.WhatTheConverterStarts : Prop :=
  (∀ (s : State) t,
      (∀ c, s.isHeld c = true ↔
        ∃ cp cancelled sampled values, s.capture.bank = .holding cp cancelled sampled values ∧
          ∃ it ∈ cp.items, it.channel = c) ∧
        (s.interstitialEligible = true ↔
          s.capture.bank.offer ≠ none ∨ ∃ d ∈ s.demand.entries, s.isHeld d.channel = false) ∧
        (s.sched.inRound = true ↔ s.sched.state = .running ∨ s.sched.state = .late) ∧
        (s.conv.work = none → s.chooseIfIdle t = s.choose t) ∧
        (s.conv.work ≠ none → s.chooseIfIdle t = s)) ∧
    (∀ (c : Instr) (s u : State) w, s.conv.work = none ∨ c = .conversionComplete → exec c s = .next u →
        u.conv.work = some w → (∀ tag pos, w.kind ≠ .capture tag pos) → u.isHeld w.channel = false) ∧
      ∀ (s u : State) w w', s.conv.work = some w → exec .conversionComplete s = .next u →
        u.sched.inRound = true → u.conv.work = some w' → (∀ k, w'.kind ≠ .plan k) →
          ∃ k, w.kind = .plan k

/-- Every step keeps the end instant of the work in flight its start plus the cost of its resolution and
hold, with capture work in HOLD (R9, R56). -/
def Obligations.ConversionsTakeTheirCost : Prop :=
  ∀ s s' : State, s.WorkTimed → step s = .next s' → s'.WorkTimed

/-! ### Demands (chapter 4) -/

/-- READ_NOW is judged by R68, and one that passes queues a demand under the first tag from the counter on
that no outstanding demand carries, answers QUEUED with it, and lets an IDLE Converter choose (R68, R69). -/
def Obligations.ReadNowByCase : Prop :=
  ∀ (s : State) t p f rq, s.Asks p f .readNow → readReadNow f.payload = some rq →
    (¬s.TakesRange rq.channel rq.range →
        exec (.readNow t p) s = .next { s with ports := s.answered p f 9 [] }) ∧
      (s.TakesRange rq.channel rq.range → 2 ≤ s.demand.countOf p ∨ 6 ≤ s.demand.entries.length →
        exec (.readNow t p) s = .next { s with ports := s.answered p f 13 [] }) ∧
      (s.TakesRange rq.channel rq.range → s.demand.countOf p < 2 → s.demand.entries.length < 6 →
        ∃ n, (∀ m, m < n → s.demand.nextTag + BitVec.ofNat 8 m ∈ s.outstandingTags) ∧
          let tag := s.demand.nextTag + BitVec.ofNat 8 n
          tag ∉ s.outstandingTags ∧
          exec (.readNow t p) s =
            .next
              { (State.chooseIfIdle
                    { s with
                      demand :=
                        { entries :=
                            s.demand.entries ++
                              [⟨tag, p, rq.channel, rq.range, rq.resolution, rq.hold⟩]
                          nextTag := tag + 1 } }
                    t) with
                ports := s.answered p f 1 [tag] })

/-- Every step keeps the Demand Queue within 6 entries and 2 of one session, all under open sessions, and
the tags of the outstanding demands distinct: the one in flight and those in the queue (R67, R69). -/
def Obligations.DemandsLawful : Prop :=
  (∀ (s : State) tag,
      (tag ∈ s.outstandingTags ↔
        (∃ w p gone, s.conv.work = some w ∧ w.kind = .demand tag p gone) ∨
          ∃ d ∈ s.demand.entries, d.tag = tag) ∧
        ∀ p, s.demand.countOf p = (s.demand.entries.filter fun d => d.session == p).length) ∧
    ∀ s s' : State, s.DemandsLimited → s.DemandTagsDistinct → step s = .next s' →
      s'.DemandsLimited ∧ s'.DemandTagsDistinct

/-! ### Captures (chapter 5) -/

/-- CAPTURE is judged by R78, and one that passes joins the list under the tag counter's value, answers
QUEUED with it, is taken by a FREE bank at once, and lets an IDLE Converter choose (R78, R79). R50 and
R82 name that choice where the capture is sampled; that it is let choose after a CAPTURE that waits or is ARMED
too is the model's choice (log entry 12). So is the tag where the counter has come round to one still in the
list: the counter's value is given without a skip (log entry 21). -/
def Obligations.CaptureByCase : Prop :=
  ∀ (s : State) t p f rq, s.Asks p f .capture → readCapture f.payload = some rq →
    ((∃ it ∈ rq.items, ¬s.TakesRange it.channel it.range) →
        exec (.capture t p) s = .next { s with ports := s.answered p f 9 [] }) ∧
      ((∀ it ∈ rq.items, s.TakesRange it.channel it.range) →
        (∃ cp ∈ s.capture.list, cp.session = p) →
        exec (.capture t p) s = .next { s with ports := s.answered p f 14 [] }) ∧
      ((∀ it ∈ rq.items, s.TakesRange it.channel it.range) →
        (∀ cp ∈ s.capture.list, cp.session ≠ p) →
        exec (.capture t p) s =
          .next
            { ((State.takeHead
                    { s with
                      capture :=
                        { s.capture with
                          list :=
                            s.capture.list ++
                              [⟨s.capture.nextTag, p, rq.items, rq.resolution, rq.trigger,
                                  rq.armTimeout⟩]
                          nextTag := s.capture.nextTag + 1 } }
                    t).chooseIfIdle
                t) with
              ports := s.answered p f 1 [s.capture.nextTag] })

/-- A FREE bank takes the head of the list: ARMED with its arm timer for a line trigger, or sampled at once
for IMMEDIATE, every stage keeping the voltage of that instant; a bank that is not FREE, or an empty list,
changes nothing (R81, R82). -/
def Obligations.BankTakesTheHead : Prop :=
  ∀ (s : State) t,
    (∀ cp rest line edge ms, s.capture.bank = .free → s.capture.list = cp :: rest →
      cp.trigger = .line line edge → cp.armTimeout = some ms →
        s.takeHead t =
          { s with
            capture :=
              { s.capture with extraEdges := 0, bank := .armed cp (t + ms * 1000000) } }) ∧
      (∀ cp rest, s.capture.bank = .free → s.capture.list = cp :: rest →
        cp.trigger = .immediate →
          s.takeHead t =
            { s with
              capture :=
                { s.capture with
                  extraEdges := 0
                  bank :=
                    .holding cp false t
                      (cp.items.map fun it =>
                        ⟨s.measure it.channel it.range t, none, false, none⟩) } }) ∧
      (s.capture.bank ≠ .free ∨ s.capture.list = [] → s.takeHead t = s)

/-- CANCEL_CAPTURE by where the named capture stands: removed from the list; and out of an ARMED bank, or a
HOLDING one with no conversion of it in flight, which becomes FREE and takes the next head; or marked
cancelled with its values dropped while one is in flight; else TOO_LATE or NOT_FOUND (R91). The model's
choices: a cancelled capture's slots read without results and otherwise as they were (log entry 13); the
capture leaves the list by its session (log entry 14); an IDLE Converter is let choose after the cancel of a
waiting capture too, where R91 names no choice (log entry 12). A conversion of a capture is in flight while the
work is CAPTURE work under its tag. -/
def Obligations.CancelCaptureByPlace : Prop :=
  (∀ (s : State) tag,
      s.captureInFlight tag = true ↔ ∃ w pos, s.conv.work = some w ∧ w.kind = .capture tag pos) ∧
    ∀ (s : State) t p f tag, s.Asks p f .cancelCapture → f.payload = [tag] →
      let left := s.capture.list.filter fun x => x.session != p
      ((∃ cp ∈ s.capture.list, cp.session = p ∧ cp.tag = tag) →
          (∀ cp timer, s.capture.bank = .armed cp timer → cp.session = p →
            exec (.cancelCapture t p) s =
              .next
                { ((State.takeHead { s with capture := { s.capture with list := left, bank := .free } }
                      t).chooseIfIdle
                    t) with
                  ports := s.answered p f 0 [] }) ∧
            (∀ cp sampled values, s.capture.bank = .holding cp false sampled values →
              cp.session = p →
                (s.captureInFlight cp.tag = false →
                  exec (.cancelCapture t p) s =
                    .next
                      { ((State.takeHead
                              { s with capture := { s.capture with list := left, bank := .free } }
                              t).chooseIfIdle
                          t) with
                        ports := s.answered p f 0 [] }) ∧
                  (s.captureInFlight cp.tag = true →
                    exec (.cancelCapture t p) s =
                      .next
                        { s with
                          capture :=
                            { s.capture with
                              list := left
                              bank :=
                                .holding cp true sampled
                                  (values.map fun v => { v with result := none }) }
                          ports := s.answered p f 0 [] })) ∧
            ((s.capture.bank = .free ∨
                (∃ cp timer, s.capture.bank = .armed cp timer ∧ cp.session ≠ p) ∨
                ∃ cp cancelled sampled values,
                  s.capture.bank = .holding cp cancelled sampled values ∧
                    (cancelled = true ∨ cp.session ≠ p)) →
              exec (.cancelCapture t p) s =
                .next
                  { (State.chooseIfIdle { s with capture := { s.capture with list := left } } t) with
                    ports := s.answered p f 0 [] })) ∧
        ((∀ cp ∈ s.capture.list, ¬(cp.session = p ∧ cp.tag = tag)) →
          (s.capture.lastFinished.get p = some tag →
            exec (.cancelCapture t p) s = .next { s with ports := s.answered p f 15 [] }) ∧
            (s.capture.lastFinished.get p ≠ some tag →
              exec (.cancelCapture t p) s = .next { s with ports := s.answered p f 12 [] }))

/-- A trigger edge by bank state: a matching edge samples an ARMED capture and counts as an extra edge in a
HOLDING bank that is not cancelled; every other edge is ignored (R82, R83). -/
def Obligations.TriggerEdgeByBankState : Prop :=
  ∀ (s : State) t line edge,
    (∀ cp timer, s.capture.bank = .armed cp timer →
      (cp.trigger = .line line edge →
        exec (.triggerEdge t line edge) s =
          .next
            (State.chooseIfIdle
              { s with
                capture :=
                  { s.capture with
                    bank :=
                      .holding cp false t
                        (cp.items.map fun it =>
                          ⟨s.measure it.channel it.range t, none, false, none⟩) } }
              t)) ∧
        (cp.trigger ≠ .line line edge → exec (.triggerEdge t line edge) s = .next s)) ∧
      (∀ cp cancelled sampled values, s.capture.bank = .holding cp cancelled sampled values →
        (cancelled = false → cp.trigger = .line line edge →
          exec (.triggerEdge t line edge) s =
            .next
              { s with
                capture :=
                  { s.capture with extraEdges := min (s.capture.extraEdges + 1) 255 } }) ∧
          (cancelled = true ∨ cp.trigger ≠ .line line edge →
            exec (.triggerEdge t line edge) s = .next s)) ∧
      (s.capture.bank = .free → exec (.triggerEdge t line edge) s = .next s)

/-- The arm timeout of an ARMED capture: the capture leaves the list, its tag is its session's last finished
one, CAPTURE_TIMEOUT is queued to that session, and the bank becomes FREE and takes the next head (R84). Then
an IDLE Converter is let choose, since that head may be sampled at once (R50, R82). The model's choices: that
it is let choose after every arm timeout (log entry 12), and that the capture leaves the list by its session
(log entry 14). -/
def Obligations.ArmTimeoutEndsTheCapture : Prop :=
  ∀ (s : State) cp timer, s.capture.bank = .armed cp timer →
    exec .armTimeout s =
      .next
        ((State.takeHead
              { s with
                capture :=
                  { s.capture with
                    list := s.capture.list.filter fun x => x.session != cp.session
                    bank := .free
                    lastFinished := s.capture.lastFinished.set cp.session (some cp.tag) }
                events :=
                  s.events.set cp.session
                    ((s.eventsOf cp.session).append (.captureTimeout cp.tag)) }
              timer).chooseIfIdle
          timer)

/-- Every step keeps at most one capture of a session in the list, each under an open session, the bank in
agreement with the list, and every taken value slot's DROOP flag as R88 judges it (R77, R81, R88). With that,
every step keeps the bank served: captures as Table 5-1 has them, a capture conversion in flight the bank
capture's, one in flight for a cancelled bank capture, and every slot not done either not taken or in flight, so
that no bank stays HOLDING for ever (Table 5-3, R78, R87, R89, R91, R92); and every record at most 39 bytes long,
so that a GET_RESULTS reply always carries the first (Table 10-13, R105). -/
def Obligations.CapturesLawful : Prop :=
  ∀ s s' : State, s.CapturesLawful → s.capture.bank.DroopJudged → step s = .next s' →
    s'.CapturesLawful ∧ s'.capture.bank.DroopJudged ∧
      (s.BankServed → s'.BankServed ∧ (s.RecordsFit → s'.RecordsFit))

/-! ### The Result Store (chapter 6) -/

/-- A table entry, once VALID, stays VALID until power-on or RSTN, and only a conversion's completion
changes more of it than its STALE mark (R97, R98). -/
def Obligations.EntriesChangeOnlyByCompletions : Prop :=
  ∀ (c : Instr) (s u : State) ch, exec c s = .next u → c ≠ .powerOn → c ≠ .rstn →
    ((s.table.get ch).valid = true → (u.table.get ch).valid = true) ∧
      (c ≠ .conversionComplete →
        u.table.get ch = s.table.get ch ∨ u.table.get ch = { s.table.get ch with stale := true })

/-- GET_RESULTS takes the longest run of records from the head that is at most n and fits in 240 bytes
beside the two counts, at least one of a queue that is not empty (where every record is at most 39 bytes
long, which CapturesLawful keeps), removes it, and answers it with the count left; LAPSED, lost count and
watermark stay (R105). Every record is laid out as Table 10-13 gives (R157, R165). -/
def Obligations.GetResultsTakesWhatFits : Prop :=
  (∀ r : Record, r.LaidOut r.bytes) ∧
    ∀ (s : State) p f n, s.Asks p f .getResults → readUpTo32 f.payload = some n →
      ∃ k,
        exec (.getResults p) s =
            .next
              { s with
                results :=
                  s.results.set p
                    { s.resultsOf p with records := (s.resultsOf p).records.drop k }
                ports :=
                  s.answered p f 0
                    (u8 k :: u8 ((s.resultsOf p).records.length - k) ::
                      ((s.resultsOf p).records.take k).flatMap Record.bytes) } ∧
          k ≤ n ∧ k ≤ (s.resultsOf p).records.length ∧
          2 + (((s.resultsOf p).records.take k).flatMap Record.bytes).length ≤ 240 ∧
          (k < n → k < (s.resultsOf p).records.length →
            240 < 2 + (((s.resultsOf p).records.take (k + 1)).flatMap Record.bytes).length) ∧
          ((s.resultsOf p).records ≠ [] → (∀ r ∈ (s.resultsOf p).records, r.bytes.length ≤ 39) →
            0 < k)

/-- RESUME answers and ends a LAPSED state, or answers 0; SET_WATERMARK writes the watermark; READ_TABLE
answers seven bytes for each channel its mask names, ascending, and changes nothing; GET_EVENTS takes the
first n events, answers them with the count left and the event-lost mark as it stood, and clears the mark
(R99, R108, R110, R122). Table entries are laid out as Table 10-12 gives, events as Table 10-14 (R157, R166). -/
def Obligations.StoreRequests : Prop :=
  (∀ (e : TableEntry) c, e.LaidOut c (e.bytes c)) ∧ (∀ e : Event, e.LaidOut e.bytes) ∧
    (∀ (s : State) p f, s.Asks p f .resume →
      ((s.resultsOf p).lapsed = true →
        exec (.resume p) s =
          .next
            { s with
              results := s.results.set p { s.resultsOf p with lapsed := false, lost := 0 }
              ports := s.answered p f 0 (u16 (s.resultsOf p).lost) }) ∧
        ((s.resultsOf p).lapsed = false →
          exec (.resume p) s = .next { s with ports := s.answered p f 0 [0, 0] })) ∧
    (∀ (s : State) p f n, s.Asks p f .setWatermark → readUpTo32 f.payload = some n →
      exec (.setWatermark p) s =
        .next
          { s with
            results := s.results.set p { s.resultsOf p with watermark := n }
            ports := s.answered p f 0 [] }) ∧
    (∀ (s : State) p f mask, s.Asks p f .readTable → readMask f.payload = some mask →
      ∃ l,
        exec (.readTable p) s = .next { s with ports := s.answered p f 0 l } ∧
          l.length = 7 * (allChannels.countP fun c => mask.getLsbD c.val) ∧
          ∀ c, mask.getLsbD c.val = true →
            (l.drop (7 * (allChannels.countP fun d => decide (d < c) && mask.getLsbD d.val))).take 7 =
              (s.table.get c).bytes c) ∧
    ∀ (s : State) p f n, s.Asks p f .getEvents → readUpTo8 f.payload = some n →
      let q := s.eventsOf p
      exec (.getEvents p) s =
        .next
          { s with
            events := s.events.set p { events := q.events.drop n, lost := false }
            ports :=
              s.answered p f 0
                (u8 (min n q.events.length) :: u8 (q.events.length - n) ::
                  (if q.lost then 1 else 0) :: (q.events.take n).flatMap Event.bytes) }

/-- Every step keeps each result queue within 32 records, LAPSED exactly while its lost count is not 0, with
a watermark of 1–32, and each event queue within 8 events, with no event-lost mark over an empty one
(R101, R110, R120, R121). -/
def Obligations.QueuesBounded : Prop :=
  ∀ s s' : State, s.ResultsBounded → s.EventsBounded → step s = .next s' →
    s'.ResultsBounded ∧ s'.EventsBounded

/-! ### Windows and events (chapter 7) -/

/-- The classification of a value against a window (R116). -/
def Obligations.WindowClassification : Prop :=
  ∀ (w : Window) (v : Int),
    (classify w v = .below ↔ ∃ b, w.lower = some b ∧ v < b) ∧
      (∀ r res, w.valid r res = true →
        (classify w v = .above ↔ ∃ b, w.upper = some b ∧ b < v) ∧
          (classify w v = .inside ↔
            (∀ b, w.lower = some b → b ≤ v) ∧ ∀ b, w.upper = some b → v ≤ b) ∧
          (∀ b, w.lower = some b → inCodeSpace r res b = true) ∧
          ∀ b, w.upper = some b → inCodeSpace r res b = true)

/-- The first classification from UNKNOWN is taken at once, with an event unless it is INSIDE; from a known
state a run of like differing classifications changes the state, with one event, at its confirm count and
not before, and a classification equal to the state breaks the run (R117). A claim's window is so evaluated on
the value's classification; a claim without one keeps its state and candidate (R115). The WINDOW event carries
the channel, the state before and after, the value and the round (R118). -/
def Obligations.WindowConfirmation : Prop :=
  (∀ (cl : Claim) (v : Int),
      (cl.terms.window = none →
        cl.watch v = ⟨cl.windowState, cl.candidate, false⟩) ∧
        (∀ w, cl.terms.window = some w →
          cl.watch v = watchStep w.confirm cl.windowState cl.candidate (classify w v)) ∧
        ∀ c r,
          ((cl.watch v).event = false → cl.windowEvent c v r = none) ∧
            ((cl.watch v).event = true →
              cl.windowEvent c v r =
                some (.window c cl.windowState (cl.watch v).state v r))) ∧
    ∀ n st k cand, 1 ≤ n → k ≠ .unknown →
      watchStep n .unknown cand k = ⟨k, none, decide (k ≠ .inside)⟩ ∧
        (st ≠ .unknown → watchStep n st cand st = ⟨st, none, false⟩) ∧
        (st ≠ .unknown → k ≠ st → (∀ c, cand = some c → c.state ≠ k) →
          let run := fun j => (fun x => watchStep n x.state x.candidate k)^[j] ⟨st, cand, false⟩
          (∀ j, 1 ≤ j → j < n → run j = ⟨st, some ⟨k, j⟩, false⟩) ∧ run n = ⟨k, none, true⟩)

/-- What queues make of what is handed to them: an event queue of at most 8 keeps its newest 8 events, and sets
the event-lost mark exactly if more than 8 came together (R120); a result queue that is not LAPSED keeps the
first 32 records, and is LAPSED exactly if there were more, with the number of those as its lost count; a
LAPSED one appends none and counts each (R103). A result queue accepts a record exactly if it is not LAPSED and
holds fewer than 32, and appends it exactly then; so a discarded PLAN record leaves the gap count (R55, R64). -/
def Obligations.QueuesTakeWhatIsHanded : Prop :=
  (∀ (q : ResultQueue) r,
      (q.accepts = true ↔ q.lapsed = false ∧ q.records.length < 32) ∧
        (q.handRecord r).records = if q.accepts then q.records ++ [r] else q.records) ∧
    (∀ (q : EventQueue) (l : List Event), q.events.length ≤ 8 →
        (l.foldl EventQueue.append q).events =
            (q.events ++ l).drop (q.events.length + l.length - 8) ∧
          (l.foldl EventQueue.append q).lost =
            (q.lost || decide (8 < q.events.length + l.length))) ∧
      ∀ (q : ResultQueue) (l : List Record),
        let total := q.records.length + l.length
        (q.lapsed = false → q.lost = 0 → q.records.length ≤ 32 →
            l.foldl ResultQueue.handRecord q =
              { records := (q.records ++ l).take 32
                lapsed := decide (32 < total)
                lost := min (total - 32) 65535
                watermark := q.watermark }) ∧
          (q.lapsed = true → q.lost ≤ 65535 →
            l.foldl ResultQueue.handRecord q = { q with lost := min (q.lost + l.length) 65535 })

/-! ### Sessions (chapter 8) -/

/-- OPEN opens a CLOSED session under the next epoch with the pace, lease and watermark it names, and is
answered ALREADY_OPEN by an OPEN one (R110, R129). -/
def Obligations.OpenByState : Prop :=
  ∀ (s : State) t p f rq, s.Asks p f .openKind → readOpen f.payload = some rq →
    (s.sessionOpen p = false →
      exec (.openSession t p) s =
        .next
          { s with
            sessions :=
              s.sessions.set p
                { isOpen := true
                  epoch := (s.sessionOf p).epoch + 1
                  pace := some rq.pace
                  lease := some rq.lease
                  leaseTimer := some (t + rq.lease * 1000000)
                  expired := false
                  resetSeen := false }
            results :=
              s.results.set p
                { s.resultsOf p with watermark := if rq.watermark = 0 then 16 else rq.watermark }
            ports := s.answered p f 0 [(s.sessionOf p).epoch + 1, 1, 60, 1] }) ∧
      (s.sessionOpen p = true →
        exec (.openSession t p) s = .next { s with ports := s.answered p f 3 [] })

/-- A teardown in every block, outside the one case the Scheduler's law rules out (IDLE in a round): the whole
state it leaves with the Converter BUSY, and with it IDLE that state after one choice of interstitial work,
which a freed bank may have made eligible. What the session held is gone; its record keeps epoch, pace, lease
and flags, and its watermark stays; the claims, demands, captures, records and events of the other sessions
stay (R23, R26, R59, R75, R94, R112, R126, R134, R135, Table 8-3). The model's choices: the capture leaves the
list by its session (log entry 14), a cancelled capture's slots read without results (log entry 13), and an
IDLE Converter is let choose after every teardown (log entry 12). -/
def Obligations.TeardownInEveryBlock : Prop :=
  ∀ (s : State) p t, s.CapturesLawful → (s.sched.inRound = true → s.conv.work ≠ none) →
    (s.teardown p t).HoldsNothing p ∧
      ∃ claims plan capture,
        let left := s.capture.list.filter fun cp => cp.session != p
        let finished := s.capture.lastFinished.set p none
        let freed : State :=
          { s with
            capture := { s.capture with list := left, bank := .free, lastFinished := finished } }
        let torn : State :=
          { s with
            claims := claims
            sched := { s.sched with plan := plan }
            conv :=
              { s.conv with
                work :=
                  s.conv.work.map fun w =>
                    { w with
                      kind :=
                        match w.kind with
                        | .demand tag q gone => .demand tag q (gone || decide (q = p))
                        | k => k } }
            demand :=
              { s.demand with entries := s.demand.entries.filter fun d => d.session != p }
            capture := capture
            results :=
              s.results.set p { s.resultsOf p with records := [], lapsed := false, lost := 0 }
            events := s.events.set p { events := [], lost := false }
            sessions :=
              s.sessions.set p { s.sessionOf p with isOpen := false, leaseTimer := none } }
        (∀ q c, claims.get q c = if q = p then none else s.claimOf q c) ∧
          (∀ c,
            plan.get c =
              (s.sched.plan.get c).map fun e => { e with holders := e.holders.set p false }) ∧
          ((∀ cp ∈ s.capture.list, cp.session ≠ p) →
            capture = { s.capture with lastFinished := finished }) ∧
          (∀ cp timer, s.capture.bank = .armed cp timer →
            capture =
              if cp.session = p then (freed.takeHead t).capture
              else { s.capture with list := left, lastFinished := finished }) ∧
          (∀ cp cancelled sampled values, s.capture.bank = .holding cp cancelled sampled values →
            capture =
              if cp.session ≠ p ∨ cancelled = true then
                { s.capture with list := left, lastFinished := finished }
              else if s.captureInFlight cp.tag then
                { s.capture with
                  list := left
                  bank :=
                    .holding cp true sampled (values.map fun v => { v with result := none })
                  lastFinished := finished }
              else (freed.takeHead t).capture) ∧
          (s.conv.work ≠ none → s.teardown p t = torn) ∧
          (s.conv.work = none → s.teardown p t = torn.takeInterstitial t)

/-- CLOSE and LINK_RESET tear the session down and answer OK, LINK_RESET also emptying the copy and the
memory and clearing the flags, with nothing torn down for a CLOSED session; the running out of an open
session's lease tears it down and sets EXPIRED (R132, R136, R137, R156). -/
def Obligations.SessionsEnd : Prop :=
  (∀ (s : State) t p f, s.Asks p f .close →
      exec (.closeSession t p) s =
        .next { (State.teardown s p t) with ports := s.answered p f 0 [] }) ∧
    (∀ (s : State) t p f, s.Asks p f .linkReset →
      let h : HostPort :=
        { s.portOf p with
          request := none
          reply := some ⟨f.kind, f.sequence, 0, []⟩
          lastReply := some ⟨f.kind, f.sequence, 0, []⟩
          memory := none
          dropped := false }
      (s.sessionOpen p = true →
        exec (.linkReset t p) s =
          .next
            { (State.teardown s p t) with
              sessions :=
                s.sessions.set p
                  { s.sessionOf p with
                    isOpen := false
                    leaseTimer := none
                    expired := false
                    resetSeen := false }
              ports := s.ports.set p h }) ∧
        (s.sessionOpen p = false →
          exec (.linkReset t p) s =
            .next
              { s with
                sessions := s.sessions.set p { s.sessionOf p with expired := false, resetSeen := false }
                ports := s.ports.set p h })) ∧
    ∀ (s : State) p t, s.sessionOpen p = true → (s.sessionOf p).leaseTimer = some t →
      exec (.leaseExpiry p) s =
        .next
          { (State.teardown s p t) with
            sessions :=
              s.sessions.set p
                { s.sessionOf p with isOpen := false, leaseTimer := none, expired := true } }

/-- Every step keeps the other blocks holding nothing under a CLOSED session, and no demand in flight for
one but with its requester gone (R59, R67, R77, R128). -/
def Obligations.ClosedSessionsHoldNothing : Prop :=
  ∀ s s' : State, s.ClosedHoldNothing → step s = .next s' → s'.ClosedHoldNothing

/-- Every step keeps the session records lawful: an OPEN one has a pace, a lease and a running timer and
shows no flag, a CLOSED one has its timer stopped, and EXPIRED and RESET_SEEN never stand together
(R128, R138). -/
def Obligations.SessionsLawful : Prop :=
  ∀ s s' : State, s.SessionsLawful → step s = .next s' → s'.SessionsLawful

/-- An epoch changes only when OPEN opens a CLOSED session, by one, and at power-on, to 0 (R130). -/
def Obligations.EpochChangesOnlyByOpen : Prop :=
  ∀ (c : Instr) (s u : State) p, exec c s = .next u →
    (u.sessionOf p).epoch = (s.sessionOf p).epoch ∨
      (c = .powerOn ∧ (u.sessionOf p).epoch = 0) ∨
      ∃ t, c = .openSession t p ∧ s.sessionOpen p = false ∧ u.sessionOpen p = true ∧
        (u.sessionOf p).epoch = (s.sessionOf p).epoch + 1

/-! ### The Host Link (chapters 9 and 10) -/

/-- The assertion of select fixes the status byte, bit by bit, and whether a reply is shown; the selection
shifts out that byte, the reply frame if one is shown, and fill bytes of 0, and no command before its release
changes them; under RSTN the selection is void (R141, R154, R155, R158, R159). A port's alert line is asserted
exactly while its session is OPEN with events pending, at its watermark or LAPSED (R125). The model's choices:
a void selection is held as no selection, and a selection that meets a reset shifts out 0 from there on, as
R155 says, though R141 has the reply go on (log entry 10). Every byte goes out most significant bit first
(9.2, R157). -/
def Obligations.SelectAssertFixesTheStatus : Prop :=
  ∀ (s : State) p,
    (∀ k, s.sdoBit p k = (s.sdoByte p (k / 8)).getLsbD (7 - k % 8)) ∧
    (s.rstnAsserted = false → (s.portOf p).selection = none →
      ∃ (b : Byte) (u : State),
        u =
            { s with
              ports :=
                s.ports.set p
                  { s.portOf p with selection := some ⟨b, (s.portOf p).reply.isSome⟩ } } ∧
          exec (.selectAssert p) s = .next u ∧ u.sdoByte p 0 = b ∧
          ((s.portOf p).reply = none → ∀ k, 0 < k → u.sdoByte p k = 0) ∧
          (∀ r, (s.portOf p).reply = some r → r.payload.length ≤ 240 →
            r.ShiftedOut (u.sdoByte p)) ∧
          b.getLsbD 7 = (s.portOf p).reply.isSome ∧ b.getLsbD 6 = (s.sessionOf p).isOpen ∧
          b.getLsbD 5 = ((s.sessionOf p).isOpen && decide ((s.eventsOf p).events ≠ [])) ∧
          b.getLsbD 4 =
            ((s.sessionOf p).isOpen &&
              decide ((s.resultsOf p).watermark ≤ (s.resultsOf p).records.length)) ∧
          b.getLsbD 3 = ((s.sessionOf p).isOpen && (s.resultsOf p).lapsed) ∧
          b.getLsbD 2 = (s.portOf p).dropped ∧ b.getLsbD 1 = (s.sessionOf p).expired ∧
          b.getLsbD 0 = (s.sessionOf p).resetSeen) ∧
      (s.rstnAsserted = true → exec (.selectAssert p) s = .next s) ∧
      (∀ (c : Instr) (u : State) sel, s.SlotsExclusive → (s.portOf p).selection = some sel →
        (sel.replyShown = true → (s.portOf p).reply ≠ none) →
        (∀ t sdi, c ≠ .selectRelease t p sdi) → c ≠ .powerOn → c ≠ .rstn → exec c s = .next u →
          u.shiftedOut p = s.shiftedOut p) ∧
      (∀ (c : Instr) (u : State) k, c = .powerOn ∨ c = .rstn → exec c s = .next u →
        u.sdoByte p k = 0) ∧
      (s.alertAsserted p = true ↔
        (s.sessionOf p).isOpen = true ∧
          ((s.eventsOf p).events ≠ [] ∨
            (s.resultsOf p).watermark ≤ (s.resultsOf p).records.length ∨
            (s.resultsOf p).lapsed = true))

/-- The release of a selection that carries no frame, or one while a slot is occupied after the fetch: the
fetch and DROPPED are settled, and the frame is dropped without any other effect (R142, R143, R146, R147). At
the release of a void selection nothing is fetched, taken or dropped, and no flag changes (R148, R155); that a
void selection is held as no selection is the model's choice (log entry 10). -/
def Obligations.ReleaseSettlesTheSelection : Prop :=
  (∀ (s : State) t p sdi, (s.portOf p).selection = none →
      exec (.selectRelease t p sdi) s = .next s) ∧
    (∀ (s : State) t p sdi sel, s.rstnAsserted = true → (s.portOf p).selection = some sel →
      exec (.selectRelease t p sdi) s =
        .next { s with ports := s.ports.set p { s.portOf p with selection := none } }) ∧
    ∀ (s : State) t p sdi sel, s.rstnAsserted = false → (s.portOf p).selection = some sel →
      let h := (s.portOf p).settled sel sdi.length
      (carried sdi = .nothing →
        exec (.selectRelease t p sdi) s =
          .next { s with ports := s.ports.set p { h with selection := none } }) ∧
        (carried sdi ≠ .nothing → h.request.isSome = true ∨ h.reply.isSome = true →
          exec (.selectRelease t p sdi) s =
            .next { s with ports := s.ports.set p { h with dropped := true, selection := none } })

/-- The release of a selection whose frame is taken, by the cases of R149: FRAME_ERROR, CRC_ERROR, the copy
for an identical frame, the copy or NO_REPLY for a REPEAT, or execution; a good CRC restarts the lease of an
OPEN session (R131, R144, R145, R149, R150, R151, R152, R153). -/
def Obligations.FrameTakenByCase : Prop :=
  ∀ (s : State) t p sdi sel, s.rstnAsserted = false → (s.portOf p).selection = some sel →
    let h := { (s.portOf p).settled sel sdi.length with selection := none }
    let error := fun (kind sequence status : Byte) =>
      { h with
        reply := some ⟨kind, sequence, status, []⟩
        lastReply := some ⟨kind, sequence, status, []⟩
        memory := none }
    h.request = none → h.reply = none →
      (∀ kind sequence, carried sdi = .malformed kind sequence →
        exec (.selectRelease t p sdi) s =
          .next { s with ports := s.ports.set p (error kind sequence 8) }) ∧
        ∀ f, carried sdi = .frame f →
          (f.good = false →
            exec (.selectRelease t p sdi) s =
              .next { s with ports := s.ports.set p (error f.kind f.sequence 7) }) ∧
            (f.good = true → h.memory = some f.remembered →
              exec (.selectRelease t p sdi) s =
                .next
                  { s with
                    ports := s.ports.set p { h with reply := h.lastReply }
                    sessions := s.leaseRestarted p t }) ∧
            (f.good = true → h.memory ≠ some f.remembered → f.kind = 5 → f.payload = [] →
              (h.lastReply ≠ none →
                exec (.selectRelease t p sdi) s =
                  .next
                    { s with
                      ports := s.ports.set p { h with reply := h.lastReply }
                      sessions := s.leaseRestarted p t }) ∧
                (h.lastReply = none →
                  exec (.selectRelease t p sdi) s =
                    .next
                      { s with
                        ports :=
                          s.ports.set p
                            { h with
                              reply := some ⟨5, f.sequence, 16, []⟩
                              lastReply := some ⟨5, f.sequence, 16, []⟩ }
                        sessions := s.leaseRestarted p t })) ∧
            (f.good = true → h.memory ≠ some f.remembered → ¬(f.kind = 5 ∧ f.payload = []) →
              exec (.selectRelease t p sdi) s =
                .next
                  { s with
                    ports :=
                      s.ports.set p
                        { h with
                          request := some f
                          memory := some ⟨f.kind, f.sequence.setWidth 4, f.crc⟩ }
                    sessions := s.leaseRestarted p t })

/-- Framing: a whole request frame with anything behind it is read back as it was sent; one cut short after
its first byte is malformed, with the sequence byte if that came whole; a first byte of 0, or less than a
byte, carries nothing; a length above 240 is malformed (R142, R144, R158). A frame is good if its CRC is the
register's after its other bytes: all ones at first, each bit, most significant first, through the generator
x^16 + x^15 + x^2 + 1 (R145). -/
def Obligations.FramesReadBack : Prop :=
  (∀ b : Byte,
      bitsOfByte b =
        [b.getLsbD 7, b.getLsbD 6, b.getLsbD 5, b.getLsbD 4, b.getLsbD 3, b.getLsbD 2, b.getLsbD 1,
          b.getLsbD 0]) ∧
    (∀ f : Frame,
      f.good = true ↔ crc16 (f.kind :: f.sequence :: u8 f.payload.length :: f.payload) = f.crc) ∧
    crc16 [] = 0xFFFF#16 ∧
    (∀ (l : List Byte) (b : Byte),
      crc16 (l ++ [b]) =
        (bitsOfByte b).foldl
          (fun (r : BitVec 16) x => if r.msb = x then r <<< 1 else (r <<< 1) ^^^ 0x8005#16) (crc16 l)) ∧
    (∀ (f : Frame) (extra : List Bool), f.kind ≠ 0 → f.payload.length ≤ 240 →
      carried (f.bits ++ extra) = .frame f ∧
        ∀ n, 8 ≤ n → n < f.bits.length →
          carried (f.bits.take n) = .malformed f.kind (if n < 16 then 0 else f.sequence)) ∧
    (∀ sdi : List Bool, sdi.length < 8 → carried sdi = .nothing) ∧
    (∀ extra : List Bool, carried (bitsOfByte 0 ++ extra) = .nothing) ∧
    ∀ (kind sequence len : Byte) (extra : List Bool), kind ≠ 0 → 240 < len.toNat →
      carried (bitsOfByte kind ++ bitsOfByte sequence ++ bitsOfByte len ++ extra) =
        .malformed kind sequence

/-- Every step keeps the reply slot EMPTY while a request is EXECUTING, and the remembered frame the one
executing or the one the last-reply copy answers (R140, R151). -/
def Obligations.MemoriesAnswered : Prop :=
  ∀ s s' : State, s.MemoriesAnswered → step s = .next s' → s'.MemoriesAnswered

/-- An executing request is refused by the first common check it fails, UNKNOWN_KIND, NO_SESSION, BAD_LENGTH
or BAD_FIELD, and nothing else changes; a REPEAT that is executed fails BAD_LENGTH always (R161, R162). The
fields of a payload are valid, and what they read as, exactly as Tables 10-7, 10-8 and 10-9, R15 and R78 say
(R157, R163), with the kinds of Table 10-4 (R160), the codes of Table 10-1 and the lengths of Table 10-6. -/
def Obligations.CommonChecksInOrder : Prop :=
  (∀ b : Byte,
      kindOf b =
        [(0x01, Kind.openKind), (0x02, .close), (0x03, .linkReset), (0x04, .status),
          (0x05, .repeatKind), (0x10, .setPace), (0x11, .claim), (0x12, .release), (0x20, .readNow),
          (0x21, .capture), (0x22, .cancelCapture), (0x30, .getResults), (0x31, .resume),
          (0x32, .readTable), (0x33, .setWatermark), (0x40, .getEvents)].lookup b.toNat) ∧
    (∀ k : Kind,
      k.needsSession = false ↔ k = .openKind ∨ k = .linkReset ∨ k = .status ∨ k = .repeatKind) ∧
    [Range.low, .full, .bipolar].map rangeCode = [1, 2, 3] ∧
    [Hold.direct, .hold].map holdCode = [0, 1] ∧
    [Period.p1, .p2, .p4, .p8, .p16].map periodRounds = [1, 2, 4, 8, 16] ∧
    [Trigger.immediate, .line .trg0 .rising, .line .trg0 .falling, .line .trg1 .rising,
        .line .trg1 .falling].map triggerCode = [0, 1, 2, 3, 4] ∧
    [WindowState.unknown, .inside, .above, .below].map windowStateCode = [0, 1, 2, 3] ∧
    [SchedulerState.stopped, .running, .done, .late].map schedulerStateCode = [0, 1, 2, 3] ∧
    (∀ n, (u8 n).toNat = n % 256 ∧ u16 n = [u8 (n / 256), u8 n]) ∧
    (∀ k l, lengthFits k l = true ↔ tableLength k l = some l.length) ∧
    (∀ l rq, readOpen l = some rq ↔ rq.LaidOut l) ∧ (∀ l rq, readClaim l = some rq ↔ rq.LaidOut l) ∧
    (∀ l rq, readReadNow l = some rq ↔ rq.LaidOut l) ∧
    (∀ l rq, readCapture l = some rq ↔ rq.LaidOut l) ∧
    (∀ l n, readPace l = some n ↔ l.length = 2 ∧ wordAt l 0 = n ∧ 20 ≤ n ∧ n ≤ 65535) ∧
    (∀ l (c : Channel), readChannel l = some c ↔ l.length = 1 ∧ byteAt l 0 = c.val) ∧
    (∀ l tag, readTag l = some tag ↔ l = [tag]) ∧
    (∀ l n, readUpTo32 l = some n ↔ l.length = 1 ∧ byteAt l 0 = n ∧ 1 ≤ n ∧ n ≤ 32) ∧
    (∀ l n, readUpTo8 l = some n ↔ l.length = 1 ∧ byteAt l 0 = n ∧ 1 ≤ n ∧ n ≤ 8) ∧
    (∀ l (mask : BitVec 16), readMask l = some mask ↔ l.length = 2 ∧ wordAt l 0 = mask.toNat) ∧
    (∀ l, readNothing l = some () ↔ l = []) ∧
    (∀ (s : State) p f, (s.portOf p).request = some f → kindOf f.kind = none →
      exec (.unknownKind p) s = .next { s with ports := s.answered p f 4 [] }) ∧
    (∀ (s : State) p f, (s.portOf p).request = some f → kindOf f.kind = some .repeatKind →
      exec (.repeatBadLength p) s = .next { s with ports := s.answered p f 5 [] }) ∧
    ∀ (c : Instr) (s : State) p k f, requestOf c = some (p, k) → (s.portOf p).request = some f →
      kindOf f.kind = some k →
        (k.needsSession = true → s.sessionOpen p = false →
          exec c s = .next { s with ports := s.answered p f 2 [] }) ∧
          ((k.needsSession = true → s.sessionOpen p = true) →
            tableLength k f.payload ≠ some f.payload.length →
              exec c s = .next { s with ports := s.answered p f 5 [] }) ∧
          ((k.needsSession = true → s.sessionOpen p = true) →
            tableLength k f.payload = some f.payload.length → fieldsValid k f.payload = false →
              exec c s = .next { s with ports := s.answered p f 6 [] })

/-- A command of one port leaves the other ports, their session records and their result queues as they
were, and a happening that is of no port leaves every port and session record but at a reset
(R101, R128, R134, R137, R140). A port's or a session's part is read where it was written, and nowhere else. -/
def Obligations.OtherPortsUntouched : Prop :=
  (∀ (s : State) p c,
      s.portOf p = s.ports.get p ∧ s.sessionOf p = s.sessions.get p ∧
        s.resultsOf p = s.results.get p ∧ s.eventsOf p = s.events.get p ∧
        s.claimOf p c = s.claims.get p c ∧ s.sessionOpen p = (s.sessionOf p).isOpen) ∧
    (∀ (α : Type) (m : PerPort α) p q x, (m.set p x).get q = if q = p then x else m.get q) ∧
    (∀ (α : Type) (m : PerChannel α) c d x, (m.set c x).get d = if d = c then x else m.get d) ∧
    (∀ (ct : ClaimTable) p c x q d,
      (ct.set p c x).get q d = if q = p ∧ d = c then x else ct.get q d) ∧
    ∀ (c : Instr) (s u : State), exec c s = .next u →
      (∀ p q, portOfCommand c = some p → q ≠ p →
        u.portOf q = s.portOf q ∧ u.sessionOf q = s.sessionOf q ∧
          u.resultsOf q = s.resultsOf q) ∧
        (portOfCommand c = none → c ≠ .powerOn → c ≠ .rstn →
          u.ports = s.ports ∧ u.sessions = s.sessions)
end

