-- ==== Sys2Proof/Laws/Maps.lean ====
section
/-! SUPPORT. What reading a finite map gives after writing it. -/

namespace Sys2Proof.Machine

variable {α : Type}

@[simp] theorem PerPort.get_const (x : α) (p : Port) : (PerPort.const x).get p = x := by
  cases p <;> rfl

@[simp] theorem PerPort.get_set_self (m : PerPort α) (p : Port) (x : α) : (m.set p x).get p = x := by
  cases p <;> rfl

theorem PerPort.get_set_ne (m : PerPort α) {p q : Port} (x : α) (h : q ≠ p) :
    (m.set p x).get q = m.get q := by
  cases p <;> cases q <;> first | rfl | exact absurd rfl h

theorem PerPort.get_set (m : PerPort α) (p q : Port) (x : α) :
    (m.set p x).get q = if q = p then x else m.get q := by
  cases p <;> cases q <;> rfl

@[simp] theorem PerPort.get_tabulate (f : Port → α) (p : Port) : (PerPort.tabulate f).get p = f p := by
  cases p <;> rfl

@[simp] theorem PerPort.set_get (m : PerPort α) (p : Port) : m.set p (m.get p) = m := by
  cases p <;> rfl

@[simp] theorem PerPort.set_set (m : PerPort α) (p : Port) (x y : α) : (m.set p x).set p y = m.set p y := by
  cases p <;> rfl

theorem PerPort.ext_get {m n : PerPort α} (h : ∀ p, m.get p = n.get p) : m = n := by
  cases m; cases n
  have ha := h .A; have hb := h .B; have hc := h .C
  simp only [PerPort.get] at ha hb hc
  subst ha hb hc; rfl

@[simp] theorem PerChannel.get_tabulate (f : Channel → α) (c : Channel) :
    (PerChannel.tabulate f).get c = f c := by
  simp [PerChannel.get, PerChannel.tabulate]

@[simp] theorem PerChannel.get_const (x : α) (c : Channel) : (PerChannel.const x).get c = x := by
  simp [PerChannel.const]

theorem PerChannel.get_set (m : PerChannel α) (c d : Channel) (x : α) :
    (m.set c x).get d = if d = c then x else m.get d := by
  by_cases h : d = c
  · subst h; simp [PerChannel.get, PerChannel.set]
  · have : c.val ≠ d.val := fun e => h (Fin.ext e).symm
    simp [PerChannel.get, PerChannel.set, Vector.getElem_set, h, this]

@[simp] theorem PerChannel.get_set_self (m : PerChannel α) (c : Channel) (x : α) :
    (m.set c x).get c = x := by
  simp [PerChannel.get_set]

theorem PerChannel.get_set_ne (m : PerChannel α) {c d : Channel} (x : α) (h : d ≠ c) :
    (m.set c x).get d = m.get d := by
  simp [PerChannel.get_set, h]

theorem PerChannel.ext_get {m n : PerChannel α} (h : ∀ c, m.get c = n.get c) : m = n := by
  cases m with
  | mk u =>
    cases n with
    | mk v =>
      congr 1
      apply Vector.ext
      intro i hi
      simpa [PerChannel.get] using h ⟨i, hi⟩

/-- Every channel is in the ascending list. -/
theorem mem_allChannels (c : Channel) : c ∈ allChannels := by
  revert c; decide

/-- Every port is in the list. -/
theorem mem_allPorts (p : Port) : p ∈ allPorts := by
  cases p <;> decide

end Sys2Proof.Machine
end

