-- ==== Sys2Proof/Laws/State.lean ====
section
/-! SUPPORT. One lemma per field per update of the state: what each replacement leaves, and what it
changes. -/

namespace Sys2Proof.Machine

section setClaims

variable (s : State) (x : ClaimTable)

@[simp] theorem State.setClaims_claims : (s.setClaims x).claims = x := rfl
@[simp] theorem State.setClaims_sched : (s.setClaims x).sched = s.sched := rfl
@[simp] theorem State.setClaims_conv : (s.setClaims x).conv = s.conv := rfl
@[simp] theorem State.setClaims_demand : (s.setClaims x).demand = s.demand := rfl
@[simp] theorem State.setClaims_capture : (s.setClaims x).capture = s.capture := rfl
@[simp] theorem State.setClaims_table : (s.setClaims x).table = s.table := rfl
@[simp] theorem State.setClaims_results : (s.setClaims x).results = s.results := rfl
@[simp] theorem State.setClaims_events : (s.setClaims x).events = s.events := rfl
@[simp] theorem State.setClaims_sessions : (s.setClaims x).sessions = s.sessions := rfl
@[simp] theorem State.setClaims_ports : (s.setClaims x).ports = s.ports := rfl
@[simp] theorem State.setClaims_rstnAsserted : (s.setClaims x).rstnAsserted = s.rstnAsserted := rfl
@[simp] theorem State.setClaims_analog : (s.setClaims x).analog = s.analog := rfl
@[simp] theorem State.setClaims_pending : (s.setClaims x).pending = s.pending := rfl

end setClaims

section setSched

variable (s : State) (x : Scheduler)

@[simp] theorem State.setSched_claims : (s.setSched x).claims = s.claims := rfl
@[simp] theorem State.setSched_sched : (s.setSched x).sched = x := rfl
@[simp] theorem State.setSched_conv : (s.setSched x).conv = s.conv := rfl
@[simp] theorem State.setSched_demand : (s.setSched x).demand = s.demand := rfl
@[simp] theorem State.setSched_capture : (s.setSched x).capture = s.capture := rfl
@[simp] theorem State.setSched_table : (s.setSched x).table = s.table := rfl
@[simp] theorem State.setSched_results : (s.setSched x).results = s.results := rfl
@[simp] theorem State.setSched_events : (s.setSched x).events = s.events := rfl
@[simp] theorem State.setSched_sessions : (s.setSched x).sessions = s.sessions := rfl
@[simp] theorem State.setSched_ports : (s.setSched x).ports = s.ports := rfl
@[simp] theorem State.setSched_rstnAsserted : (s.setSched x).rstnAsserted = s.rstnAsserted := rfl
@[simp] theorem State.setSched_analog : (s.setSched x).analog = s.analog := rfl
@[simp] theorem State.setSched_pending : (s.setSched x).pending = s.pending := rfl

end setSched

section setConv

variable (s : State) (x : Converter)

@[simp] theorem State.setConv_claims : (s.setConv x).claims = s.claims := rfl
@[simp] theorem State.setConv_sched : (s.setConv x).sched = s.sched := rfl
@[simp] theorem State.setConv_conv : (s.setConv x).conv = x := rfl
@[simp] theorem State.setConv_demand : (s.setConv x).demand = s.demand := rfl
@[simp] theorem State.setConv_capture : (s.setConv x).capture = s.capture := rfl
@[simp] theorem State.setConv_table : (s.setConv x).table = s.table := rfl
@[simp] theorem State.setConv_results : (s.setConv x).results = s.results := rfl
@[simp] theorem State.setConv_events : (s.setConv x).events = s.events := rfl
@[simp] theorem State.setConv_sessions : (s.setConv x).sessions = s.sessions := rfl
@[simp] theorem State.setConv_ports : (s.setConv x).ports = s.ports := rfl
@[simp] theorem State.setConv_rstnAsserted : (s.setConv x).rstnAsserted = s.rstnAsserted := rfl
@[simp] theorem State.setConv_analog : (s.setConv x).analog = s.analog := rfl
@[simp] theorem State.setConv_pending : (s.setConv x).pending = s.pending := rfl

end setConv

section setDemand

variable (s : State) (x : DemandQueue)

@[simp] theorem State.setDemand_claims : (s.setDemand x).claims = s.claims := rfl
@[simp] theorem State.setDemand_sched : (s.setDemand x).sched = s.sched := rfl
@[simp] theorem State.setDemand_conv : (s.setDemand x).conv = s.conv := rfl
@[simp] theorem State.setDemand_demand : (s.setDemand x).demand = x := rfl
@[simp] theorem State.setDemand_capture : (s.setDemand x).capture = s.capture := rfl
@[simp] theorem State.setDemand_table : (s.setDemand x).table = s.table := rfl
@[simp] theorem State.setDemand_results : (s.setDemand x).results = s.results := rfl
@[simp] theorem State.setDemand_events : (s.setDemand x).events = s.events := rfl
@[simp] theorem State.setDemand_sessions : (s.setDemand x).sessions = s.sessions := rfl
@[simp] theorem State.setDemand_ports : (s.setDemand x).ports = s.ports := rfl
@[simp] theorem State.setDemand_rstnAsserted : (s.setDemand x).rstnAsserted = s.rstnAsserted := rfl
@[simp] theorem State.setDemand_analog : (s.setDemand x).analog = s.analog := rfl
@[simp] theorem State.setDemand_pending : (s.setDemand x).pending = s.pending := rfl

end setDemand

section setCapture

variable (s : State) (x : CaptureBank)

@[simp] theorem State.setCapture_claims : (s.setCapture x).claims = s.claims := rfl
@[simp] theorem State.setCapture_sched : (s.setCapture x).sched = s.sched := rfl
@[simp] theorem State.setCapture_conv : (s.setCapture x).conv = s.conv := rfl
@[simp] theorem State.setCapture_demand : (s.setCapture x).demand = s.demand := rfl
@[simp] theorem State.setCapture_capture : (s.setCapture x).capture = x := rfl
@[simp] theorem State.setCapture_table : (s.setCapture x).table = s.table := rfl
@[simp] theorem State.setCapture_results : (s.setCapture x).results = s.results := rfl
@[simp] theorem State.setCapture_events : (s.setCapture x).events = s.events := rfl
@[simp] theorem State.setCapture_sessions : (s.setCapture x).sessions = s.sessions := rfl
@[simp] theorem State.setCapture_ports : (s.setCapture x).ports = s.ports := rfl
@[simp] theorem State.setCapture_rstnAsserted : (s.setCapture x).rstnAsserted = s.rstnAsserted := rfl
@[simp] theorem State.setCapture_analog : (s.setCapture x).analog = s.analog := rfl
@[simp] theorem State.setCapture_pending : (s.setCapture x).pending = s.pending := rfl

end setCapture

section setTable

variable (s : State) (x : PerChannel TableEntry)

@[simp] theorem State.setTable_claims : (s.setTable x).claims = s.claims := rfl
@[simp] theorem State.setTable_sched : (s.setTable x).sched = s.sched := rfl
@[simp] theorem State.setTable_conv : (s.setTable x).conv = s.conv := rfl
@[simp] theorem State.setTable_demand : (s.setTable x).demand = s.demand := rfl
@[simp] theorem State.setTable_capture : (s.setTable x).capture = s.capture := rfl
@[simp] theorem State.setTable_table : (s.setTable x).table = x := rfl
@[simp] theorem State.setTable_results : (s.setTable x).results = s.results := rfl
@[simp] theorem State.setTable_events : (s.setTable x).events = s.events := rfl
@[simp] theorem State.setTable_sessions : (s.setTable x).sessions = s.sessions := rfl
@[simp] theorem State.setTable_ports : (s.setTable x).ports = s.ports := rfl
@[simp] theorem State.setTable_rstnAsserted : (s.setTable x).rstnAsserted = s.rstnAsserted := rfl
@[simp] theorem State.setTable_analog : (s.setTable x).analog = s.analog := rfl
@[simp] theorem State.setTable_pending : (s.setTable x).pending = s.pending := rfl

end setTable

section setPending

variable (s : State) (x : List Instr)

@[simp] theorem State.setPending_claims : (s.setPending x).claims = s.claims := rfl
@[simp] theorem State.setPending_sched : (s.setPending x).sched = s.sched := rfl
@[simp] theorem State.setPending_conv : (s.setPending x).conv = s.conv := rfl
@[simp] theorem State.setPending_demand : (s.setPending x).demand = s.demand := rfl
@[simp] theorem State.setPending_capture : (s.setPending x).capture = s.capture := rfl
@[simp] theorem State.setPending_table : (s.setPending x).table = s.table := rfl
@[simp] theorem State.setPending_results : (s.setPending x).results = s.results := rfl
@[simp] theorem State.setPending_events : (s.setPending x).events = s.events := rfl
@[simp] theorem State.setPending_sessions : (s.setPending x).sessions = s.sessions := rfl
@[simp] theorem State.setPending_ports : (s.setPending x).ports = s.ports := rfl
@[simp] theorem State.setPending_rstnAsserted : (s.setPending x).rstnAsserted = s.rstnAsserted := rfl
@[simp] theorem State.setPending_analog : (s.setPending x).analog = s.analog := rfl
@[simp] theorem State.setPending_pending : (s.setPending x).pending = x := rfl

end setPending

section setResults

variable (s : State) (p : Port) (x : ResultQueue)

@[simp] theorem State.setResults_claims : (s.setResults p x).claims = s.claims := rfl
@[simp] theorem State.setResults_sched : (s.setResults p x).sched = s.sched := rfl
@[simp] theorem State.setResults_conv : (s.setResults p x).conv = s.conv := rfl
@[simp] theorem State.setResults_demand : (s.setResults p x).demand = s.demand := rfl
@[simp] theorem State.setResults_capture : (s.setResults p x).capture = s.capture := rfl
@[simp] theorem State.setResults_table : (s.setResults p x).table = s.table := rfl
@[simp] theorem State.setResults_results : (s.setResults p x).results = s.results.set p x := rfl
@[simp] theorem State.setResults_events : (s.setResults p x).events = s.events := rfl
@[simp] theorem State.setResults_sessions : (s.setResults p x).sessions = s.sessions := rfl
@[simp] theorem State.setResults_ports : (s.setResults p x).ports = s.ports := rfl
@[simp] theorem State.setResults_rstnAsserted : (s.setResults p x).rstnAsserted = s.rstnAsserted := rfl
@[simp] theorem State.setResults_analog : (s.setResults p x).analog = s.analog := rfl
@[simp] theorem State.setResults_pending : (s.setResults p x).pending = s.pending := rfl

@[simp] theorem State.setResults_resultsOf_self : (s.setResults p x).resultsOf p = x := PerPort.get_set_self _ _ _

theorem State.setResults_resultsOf_ne {q : Port} (h : q ≠ p) : (s.setResults p x).resultsOf q = s.resultsOf q :=
  PerPort.get_set_ne _ _ h

theorem State.setResults_resultsOf (q : Port) : (s.setResults p x).resultsOf q = if q = p then x else s.resultsOf q :=
  PerPort.get_set _ _ _ _

@[simp] theorem State.setResults_eventsOf (q : Port) : (s.setResults p x).eventsOf q = s.eventsOf q := rfl
@[simp] theorem State.setResults_sessionOf (q : Port) : (s.setResults p x).sessionOf q = s.sessionOf q := rfl
@[simp] theorem State.setResults_portOf (q : Port) : (s.setResults p x).portOf q = s.portOf q := rfl
@[simp] theorem State.setResults_claimOf (q : Port) (c : Channel) : (s.setResults p x).claimOf q c = s.claimOf q c := rfl

end setResults

section setEvents

variable (s : State) (p : Port) (x : EventQueue)

@[simp] theorem State.setEvents_claims : (s.setEvents p x).claims = s.claims := rfl
@[simp] theorem State.setEvents_sched : (s.setEvents p x).sched = s.sched := rfl
@[simp] theorem State.setEvents_conv : (s.setEvents p x).conv = s.conv := rfl
@[simp] theorem State.setEvents_demand : (s.setEvents p x).demand = s.demand := rfl
@[simp] theorem State.setEvents_capture : (s.setEvents p x).capture = s.capture := rfl
@[simp] theorem State.setEvents_table : (s.setEvents p x).table = s.table := rfl
@[simp] theorem State.setEvents_results : (s.setEvents p x).results = s.results := rfl
@[simp] theorem State.setEvents_events : (s.setEvents p x).events = s.events.set p x := rfl
@[simp] theorem State.setEvents_sessions : (s.setEvents p x).sessions = s.sessions := rfl
@[simp] theorem State.setEvents_ports : (s.setEvents p x).ports = s.ports := rfl
@[simp] theorem State.setEvents_rstnAsserted : (s.setEvents p x).rstnAsserted = s.rstnAsserted := rfl
@[simp] theorem State.setEvents_analog : (s.setEvents p x).analog = s.analog := rfl
@[simp] theorem State.setEvents_pending : (s.setEvents p x).pending = s.pending := rfl

@[simp] theorem State.setEvents_resultsOf (q : Port) : (s.setEvents p x).resultsOf q = s.resultsOf q := rfl
@[simp] theorem State.setEvents_eventsOf_self : (s.setEvents p x).eventsOf p = x := PerPort.get_set_self _ _ _

theorem State.setEvents_eventsOf_ne {q : Port} (h : q ≠ p) : (s.setEvents p x).eventsOf q = s.eventsOf q :=
  PerPort.get_set_ne _ _ h

theorem State.setEvents_eventsOf (q : Port) : (s.setEvents p x).eventsOf q = if q = p then x else s.eventsOf q :=
  PerPort.get_set _ _ _ _

@[simp] theorem State.setEvents_sessionOf (q : Port) : (s.setEvents p x).sessionOf q = s.sessionOf q := rfl
@[simp] theorem State.setEvents_portOf (q : Port) : (s.setEvents p x).portOf q = s.portOf q := rfl
@[simp] theorem State.setEvents_claimOf (q : Port) (c : Channel) : (s.setEvents p x).claimOf q c = s.claimOf q c := rfl

end setEvents

section setSession

variable (s : State) (p : Port) (x : Session)

@[simp] theorem State.setSession_claims : (s.setSession p x).claims = s.claims := rfl
@[simp] theorem State.setSession_sched : (s.setSession p x).sched = s.sched := rfl
@[simp] theorem State.setSession_conv : (s.setSession p x).conv = s.conv := rfl
@[simp] theorem State.setSession_demand : (s.setSession p x).demand = s.demand := rfl
@[simp] theorem State.setSession_capture : (s.setSession p x).capture = s.capture := rfl
@[simp] theorem State.setSession_table : (s.setSession p x).table = s.table := rfl
@[simp] theorem State.setSession_results : (s.setSession p x).results = s.results := rfl
@[simp] theorem State.setSession_events : (s.setSession p x).events = s.events := rfl
@[simp] theorem State.setSession_sessions : (s.setSession p x).sessions = s.sessions.set p x := rfl
@[simp] theorem State.setSession_ports : (s.setSession p x).ports = s.ports := rfl
@[simp] theorem State.setSession_rstnAsserted : (s.setSession p x).rstnAsserted = s.rstnAsserted := rfl
@[simp] theorem State.setSession_analog : (s.setSession p x).analog = s.analog := rfl
@[simp] theorem State.setSession_pending : (s.setSession p x).pending = s.pending := rfl

@[simp] theorem State.setSession_resultsOf (q : Port) : (s.setSession p x).resultsOf q = s.resultsOf q := rfl
@[simp] theorem State.setSession_eventsOf (q : Port) : (s.setSession p x).eventsOf q = s.eventsOf q := rfl
@[simp] theorem State.setSession_sessionOf_self : (s.setSession p x).sessionOf p = x := PerPort.get_set_self _ _ _

theorem State.setSession_sessionOf_ne {q : Port} (h : q ≠ p) : (s.setSession p x).sessionOf q = s.sessionOf q :=
  PerPort.get_set_ne _ _ h

theorem State.setSession_sessionOf (q : Port) : (s.setSession p x).sessionOf q = if q = p then x else s.sessionOf q :=
  PerPort.get_set _ _ _ _

@[simp] theorem State.setSession_portOf (q : Port) : (s.setSession p x).portOf q = s.portOf q := rfl
@[simp] theorem State.setSession_claimOf (q : Port) (c : Channel) : (s.setSession p x).claimOf q c = s.claimOf q c := rfl

end setSession

section setPort

variable (s : State) (p : Port) (x : HostPort)

@[simp] theorem State.setPort_claims : (s.setPort p x).claims = s.claims := rfl
@[simp] theorem State.setPort_sched : (s.setPort p x).sched = s.sched := rfl
@[simp] theorem State.setPort_conv : (s.setPort p x).conv = s.conv := rfl
@[simp] theorem State.setPort_demand : (s.setPort p x).demand = s.demand := rfl
@[simp] theorem State.setPort_capture : (s.setPort p x).capture = s.capture := rfl
@[simp] theorem State.setPort_table : (s.setPort p x).table = s.table := rfl
@[simp] theorem State.setPort_results : (s.setPort p x).results = s.results := rfl
@[simp] theorem State.setPort_events : (s.setPort p x).events = s.events := rfl
@[simp] theorem State.setPort_sessions : (s.setPort p x).sessions = s.sessions := rfl
@[simp] theorem State.setPort_ports : (s.setPort p x).ports = s.ports.set p x := rfl
@[simp] theorem State.setPort_rstnAsserted : (s.setPort p x).rstnAsserted = s.rstnAsserted := rfl
@[simp] theorem State.setPort_analog : (s.setPort p x).analog = s.analog := rfl
@[simp] theorem State.setPort_pending : (s.setPort p x).pending = s.pending := rfl

@[simp] theorem State.setPort_resultsOf (q : Port) : (s.setPort p x).resultsOf q = s.resultsOf q := rfl
@[simp] theorem State.setPort_eventsOf (q : Port) : (s.setPort p x).eventsOf q = s.eventsOf q := rfl
@[simp] theorem State.setPort_sessionOf (q : Port) : (s.setPort p x).sessionOf q = s.sessionOf q := rfl
@[simp] theorem State.setPort_portOf_self : (s.setPort p x).portOf p = x := PerPort.get_set_self _ _ _

theorem State.setPort_portOf_ne {q : Port} (h : q ≠ p) : (s.setPort p x).portOf q = s.portOf q :=
  PerPort.get_set_ne _ _ h

theorem State.setPort_portOf (q : Port) : (s.setPort p x).portOf q = if q = p then x else s.portOf q :=
  PerPort.get_set _ _ _ _

@[simp] theorem State.setPort_claimOf (q : Port) (c : Channel) : (s.setPort p x).claimOf q c = s.claimOf q c := rfl

end setPort

section setClaims

variable (s : State) (x : ClaimTable)

@[simp] theorem State.setClaims_resultsOf (q : Port) : (s.setClaims x).resultsOf q = s.resultsOf q := rfl
@[simp] theorem State.setClaims_eventsOf (q : Port) : (s.setClaims x).eventsOf q = s.eventsOf q := rfl
@[simp] theorem State.setClaims_sessionOf (q : Port) : (s.setClaims x).sessionOf q = s.sessionOf q := rfl
@[simp] theorem State.setClaims_portOf (q : Port) : (s.setClaims x).portOf q = s.portOf q := rfl
@[simp] theorem State.setClaims_claimOf (q : Port) (c : Channel) : (s.setClaims x).claimOf q c = x.get q c := rfl

end setClaims

section setSched

variable (s : State) (x : Scheduler)

@[simp] theorem State.setSched_resultsOf (q : Port) : (s.setSched x).resultsOf q = s.resultsOf q := rfl
@[simp] theorem State.setSched_eventsOf (q : Port) : (s.setSched x).eventsOf q = s.eventsOf q := rfl
@[simp] theorem State.setSched_sessionOf (q : Port) : (s.setSched x).sessionOf q = s.sessionOf q := rfl
@[simp] theorem State.setSched_portOf (q : Port) : (s.setSched x).portOf q = s.portOf q := rfl
@[simp] theorem State.setSched_claimOf (q : Port) (c : Channel) : (s.setSched x).claimOf q c = s.claimOf q c := rfl

end setSched

section setConv

variable (s : State) (x : Converter)

@[simp] theorem State.setConv_resultsOf (q : Port) : (s.setConv x).resultsOf q = s.resultsOf q := rfl
@[simp] theorem State.setConv_eventsOf (q : Port) : (s.setConv x).eventsOf q = s.eventsOf q := rfl
@[simp] theorem State.setConv_sessionOf (q : Port) : (s.setConv x).sessionOf q = s.sessionOf q := rfl
@[simp] theorem State.setConv_portOf (q : Port) : (s.setConv x).portOf q = s.portOf q := rfl
@[simp] theorem State.setConv_claimOf (q : Port) (c : Channel) : (s.setConv x).claimOf q c = s.claimOf q c := rfl

end setConv

section setDemand

variable (s : State) (x : DemandQueue)

@[simp] theorem State.setDemand_resultsOf (q : Port) : (s.setDemand x).resultsOf q = s.resultsOf q := rfl
@[simp] theorem State.setDemand_eventsOf (q : Port) : (s.setDemand x).eventsOf q = s.eventsOf q := rfl
@[simp] theorem State.setDemand_sessionOf (q : Port) : (s.setDemand x).sessionOf q = s.sessionOf q := rfl
@[simp] theorem State.setDemand_portOf (q : Port) : (s.setDemand x).portOf q = s.portOf q := rfl
@[simp] theorem State.setDemand_claimOf (q : Port) (c : Channel) : (s.setDemand x).claimOf q c = s.claimOf q c := rfl

end setDemand

section setCapture

variable (s : State) (x : CaptureBank)

@[simp] theorem State.setCapture_resultsOf (q : Port) : (s.setCapture x).resultsOf q = s.resultsOf q := rfl
@[simp] theorem State.setCapture_eventsOf (q : Port) : (s.setCapture x).eventsOf q = s.eventsOf q := rfl
@[simp] theorem State.setCapture_sessionOf (q : Port) : (s.setCapture x).sessionOf q = s.sessionOf q := rfl
@[simp] theorem State.setCapture_portOf (q : Port) : (s.setCapture x).portOf q = s.portOf q := rfl
@[simp] theorem State.setCapture_claimOf (q : Port) (c : Channel) : (s.setCapture x).claimOf q c = s.claimOf q c := rfl

end setCapture

section setTable

variable (s : State) (x : PerChannel TableEntry)

@[simp] theorem State.setTable_resultsOf (q : Port) : (s.setTable x).resultsOf q = s.resultsOf q := rfl
@[simp] theorem State.setTable_eventsOf (q : Port) : (s.setTable x).eventsOf q = s.eventsOf q := rfl
@[simp] theorem State.setTable_sessionOf (q : Port) : (s.setTable x).sessionOf q = s.sessionOf q := rfl
@[simp] theorem State.setTable_portOf (q : Port) : (s.setTable x).portOf q = s.portOf q := rfl
@[simp] theorem State.setTable_claimOf (q : Port) (c : Channel) : (s.setTable x).claimOf q c = s.claimOf q c := rfl

end setTable

section setPending

variable (s : State) (x : List Instr)

@[simp] theorem State.setPending_resultsOf (q : Port) : (s.setPending x).resultsOf q = s.resultsOf q := rfl
@[simp] theorem State.setPending_eventsOf (q : Port) : (s.setPending x).eventsOf q = s.eventsOf q := rfl
@[simp] theorem State.setPending_sessionOf (q : Port) : (s.setPending x).sessionOf q = s.sessionOf q := rfl
@[simp] theorem State.setPending_portOf (q : Port) : (s.setPending x).portOf q = s.portOf q := rfl
@[simp] theorem State.setPending_claimOf (q : Port) (c : Channel) : (s.setPending x).claimOf q c = s.claimOf q c := rfl

end setPending

end Sys2Proof.Machine
end

