-- ==== Sys2Proof/Laws/Frames.lean ====
section
/-! SUPPORT. The frame of each shared operation: which parts of the state it may change, said once as an
equation, with the parts it leaves alone as simp lemmas. -/

namespace Sys2Proof.Machine

/-! ### Records and events -/

theorem State.handRecord_frame (s : State) (p : Port) (r : Record) :
    s.handRecord p r = { s with results := (s.handRecord p r).results } := rfl

theorem State.handEvents_frame (s : State) (l : List (Port × Event)) :
    s.handEvents l = { s with events := (s.handEvents l).events } := by
  induction l generalizing s with
  | nil => rfl
  | cons x l ih => simp only [State.handEvents]; rw [ih]; rfl

section handEvents

variable (s : State) (l : List (Port × Event))

@[simp] theorem State.handEvents_claims : (s.handEvents l).claims = s.claims := by
  rw [State.handEvents_frame]

@[simp] theorem State.handEvents_sched : (s.handEvents l).sched = s.sched := by
  rw [State.handEvents_frame]

@[simp] theorem State.handEvents_conv : (s.handEvents l).conv = s.conv := by
  rw [State.handEvents_frame]

@[simp] theorem State.handEvents_demand : (s.handEvents l).demand = s.demand := by
  rw [State.handEvents_frame]

@[simp] theorem State.handEvents_capture : (s.handEvents l).capture = s.capture := by
  rw [State.handEvents_frame]

@[simp] theorem State.handEvents_table : (s.handEvents l).table = s.table := by
  rw [State.handEvents_frame]

@[simp] theorem State.handEvents_results : (s.handEvents l).results = s.results := by
  rw [State.handEvents_frame]

@[simp] theorem State.handEvents_sessions : (s.handEvents l).sessions = s.sessions := by
  rw [State.handEvents_frame]

@[simp] theorem State.handEvents_ports : (s.handEvents l).ports = s.ports := by
  rw [State.handEvents_frame]

@[simp] theorem State.handEvents_rstnAsserted : (s.handEvents l).rstnAsserted = s.rstnAsserted := by
  rw [State.handEvents_frame]

@[simp] theorem State.handEvents_analog : (s.handEvents l).analog = s.analog := by
  rw [State.handEvents_frame]

@[simp] theorem State.handEvents_pending : (s.handEvents l).pending = s.pending := by
  rw [State.handEvents_frame]

/-- A session's event queue after a run of events: those of the run that are its own, in order. -/
theorem State.handEvents_eventsOf (p : Port) :
    (s.handEvents l).eventsOf p =
      (l.filterMap fun x => if x.1 = p then some x.2 else none).foldl EventQueue.append
        (s.eventsOf p) := by
  induction l generalizing s with
  | nil => rfl
  | cons x l ih =>
    simp only [State.handEvents, ih, State.handEvent, State.setEvents_eventsOf]
    by_cases h : p = x.1
    · subst h; simp
    · simp [h, Ne.symm h]

end handEvents

/-! ### The round boundary and the end of a round -/

theorem State.boundary_frame (s : State) (t : Nat) :
    s.boundary t =
      { s with
        claims := (s.boundary t).claims
        sched := (s.boundary t).sched
        table := (s.boundary t).table
        events := (s.boundary t).events } := by
  unfold State.boundary
  split
  · rfl
  · simp only [State.takeSnapshot]; rw [State.handEvents_frame]

section boundary

variable (s : State) (t : Nat)

@[simp] theorem State.boundary_conv : (s.boundary t).conv = s.conv := by rw [State.boundary_frame]

@[simp] theorem State.boundary_demand : (s.boundary t).demand = s.demand := by
  rw [State.boundary_frame]

@[simp] theorem State.boundary_capture : (s.boundary t).capture = s.capture := by
  rw [State.boundary_frame]

@[simp] theorem State.boundary_results : (s.boundary t).results = s.results := by
  rw [State.boundary_frame]

@[simp] theorem State.boundary_sessions : (s.boundary t).sessions = s.sessions := by
  rw [State.boundary_frame]

@[simp] theorem State.boundary_ports : (s.boundary t).ports = s.ports := by rw [State.boundary_frame]

@[simp] theorem State.boundary_rstnAsserted : (s.boundary t).rstnAsserted = s.rstnAsserted := by
  rw [State.boundary_frame]

@[simp] theorem State.boundary_analog : (s.boundary t).analog = s.analog := by
  rw [State.boundary_frame]

@[simp] theorem State.boundary_pending : (s.boundary t).pending = s.pending := by
  rw [State.boundary_frame]

end boundary

theorem State.lastSlotFinished_frame (s : State) (t : Nat) :
    s.lastSlotFinished t =
      { s with
        claims := (s.lastSlotFinished t).claims
        sched := (s.lastSlotFinished t).sched
        table := (s.lastSlotFinished t).table
        events := (s.lastSlotFinished t).events } := by
  unfold State.lastSlotFinished
  split
  · rfl
  · rw [State.boundary_frame]
    simp only [State.setSched_conv, State.setSched_demand, State.setSched_capture, State.setSched_results,
      State.setSched_sessions, State.setSched_ports, State.setSched_rstnAsserted, State.setSched_analog,
      State.setSched_pending, State.handEvents_conv, State.handEvents_demand, State.handEvents_capture,
      State.handEvents_results, State.handEvents_sessions, State.handEvents_ports,
      State.handEvents_rstnAsserted, State.handEvents_analog, State.handEvents_pending]
  · rfl
  · rfl

section lastSlotFinished

variable (s : State) (t : Nat)

@[simp] theorem State.lastSlotFinished_conv : (s.lastSlotFinished t).conv = s.conv := by
  rw [State.lastSlotFinished_frame]

@[simp] theorem State.lastSlotFinished_demand : (s.lastSlotFinished t).demand = s.demand := by
  rw [State.lastSlotFinished_frame]

@[simp] theorem State.lastSlotFinished_capture : (s.lastSlotFinished t).capture = s.capture := by
  rw [State.lastSlotFinished_frame]

@[simp] theorem State.lastSlotFinished_results : (s.lastSlotFinished t).results = s.results := by
  rw [State.lastSlotFinished_frame]

@[simp] theorem State.lastSlotFinished_sessions : (s.lastSlotFinished t).sessions = s.sessions := by
  rw [State.lastSlotFinished_frame]

@[simp] theorem State.lastSlotFinished_ports : (s.lastSlotFinished t).ports = s.ports := by
  rw [State.lastSlotFinished_frame]

@[simp] theorem State.lastSlotFinished_rstnAsserted :
    (s.lastSlotFinished t).rstnAsserted = s.rstnAsserted := by rw [State.lastSlotFinished_frame]

@[simp] theorem State.lastSlotFinished_analog : (s.lastSlotFinished t).analog = s.analog := by
  rw [State.lastSlotFinished_frame]

@[simp] theorem State.lastSlotFinished_pending : (s.lastSlotFinished t).pending = s.pending := by
  rw [State.lastSlotFinished_frame]

end lastSlotFinished

/-- The end of a round leaves no LATE round: DONE, or a boundary's state, or a Scheduler that was not in a
round. -/
theorem State.lastSlotFinished_not_late (s : State) (t : Nat) :
    (s.lastSlotFinished t).sched.state ≠ .late := by
  cases h : s.sched.state with
  | stopped => simp [State.lastSlotFinished, h]
  | running => simp [State.lastSlotFinished, h]
  | done => simp [State.lastSlotFinished, h]
  | late =>
    simp only [State.lastSlotFinished, h, State.boundary]
    split
    · simp [State.stopScheduler]
    · simp only [State.takeSnapshot, Scheduler.startRound]; split <;> simp

/-! ### Skips -/

theorem State.skipRun_frame (s : State) (l : List PlanSlot) :
    (s.skipRun l).1 =
      { s with
        claims := (s.skipRun l).1.claims
        sched := { s.sched with slotPosition := (s.skipRun l).1.sched.slotPosition } } := by
  induction l generalizing s with
  | nil => rfl
  | cons sl l ih =>
    simp only [State.skipRun]
    split
    · rw [ih]; rfl
    · rfl

section skipRun

variable (s : State) (l : List PlanSlot)

@[simp] theorem State.skipRun_conv : (s.skipRun l).1.conv = s.conv := by rw [State.skipRun_frame]

@[simp] theorem State.skipRun_demand : (s.skipRun l).1.demand = s.demand := by
  rw [State.skipRun_frame]

@[simp] theorem State.skipRun_capture : (s.skipRun l).1.capture = s.capture := by
  rw [State.skipRun_frame]

@[simp] theorem State.skipRun_table : (s.skipRun l).1.table = s.table := by rw [State.skipRun_frame]

@[simp] theorem State.skipRun_results : (s.skipRun l).1.results = s.results := by
  rw [State.skipRun_frame]

@[simp] theorem State.skipRun_events : (s.skipRun l).1.events = s.events := by
  rw [State.skipRun_frame]

@[simp] theorem State.skipRun_sessions : (s.skipRun l).1.sessions = s.sessions := by
  rw [State.skipRun_frame]

@[simp] theorem State.skipRun_ports : (s.skipRun l).1.ports = s.ports := by rw [State.skipRun_frame]

@[simp] theorem State.skipRun_state : (s.skipRun l).1.sched.state = s.sched.state := by
  rw [State.skipRun_frame]

@[simp] theorem State.skipRun_rstnAsserted : (s.skipRun l).1.rstnAsserted = s.rstnAsserted := by
  rw [State.skipRun_frame]

@[simp] theorem State.skipRun_analog : (s.skipRun l).1.analog = s.analog := by
  rw [State.skipRun_frame]

@[simp] theorem State.skipRun_pending : (s.skipRun l).1.pending = s.pending := by
  rw [State.skipRun_frame]

/-- The slot a run of skips stops at is not held. -/
theorem State.skipRun_not_held {sl : PlanSlot} (h : (s.skipRun l).2 = some sl) :
    s.isHeld sl.channel = false := by
  induction l generalizing s with
  | nil => simp [State.skipRun] at h
  | cons x l ih =>
    simp only [State.skipRun] at h
    split at h
    · exact ih (s.skipSlot x) h
    · simp_all

/-- The slot a run of skips stops at is one of the offered slots. -/
theorem State.skipRun_mem {sl : PlanSlot} (h : (s.skipRun l).2 = some sl) : sl ∈ l := by
  induction l generalizing s with
  | nil => simp [State.skipRun] at h
  | cons x l ih =>
    simp only [State.skipRun] at h
    split at h
    · exact List.mem_cons_of_mem _ (ih (s.skipSlot x) h)
    · simp_all

end skipRun

/-! ### The arbiter -/

theorem State.takeInterstitial_frame (s : State) (t : Nat) :
    s.takeInterstitial t =
      { s with
        conv := { s.conv with work := (s.takeInterstitial t).conv.work }
        demand := (s.takeInterstitial t).demand
        capture := (s.takeInterstitial t).capture } := by
  unfold State.takeInterstitial
  split
  · rfl
  · split <;> rfl

theorem State.slotTurn_cases (s : State) (t : Nat) (next : State → State) :
    (∃ sl, (s.skipRun s.sched.remainingSlots).2 = some sl ∧
        s.slotTurn t next = (s.skipRun s.sched.remainingSlots).1.takeSlot sl t) ∨
      ((s.skipRun s.sched.remainingSlots).2 = none ∧
        s.slotTurn t next = next ((s.skipRun s.sched.remainingSlots).1.lastSlotFinished t)) := by
  unfold State.slotTurn
  rcases h : s.skipRun s.sched.remainingSlots with ⟨s₁, _ | sl⟩ <;> simp

/-- What a choice leaves alone: the records, the sessions, the ports, the plan mark and the world's own. -/
theorem State.choose_frame (s : State) (t : Nat) :
    s.choose t =
      { s with
        claims := (s.choose t).claims
        sched := (s.choose t).sched
        conv := { s.conv with work := (s.choose t).conv.work }
        demand := (s.choose t).demand
        capture := (s.choose t).capture
        table := (s.choose t).table
        events := (s.choose t).events } := by
  unfold State.choose
  split
  · split
    · rw [State.takeInterstitial_frame]
    · unfold State.planTurn
      rcases State.slotTurn_cases s t _ with ⟨sl, -, h⟩ | ⟨-, h⟩ <;> rw [h]
      · simp [State.takeSlot, State.putWork, State.setSched, State.setConv]
      · split
        · rcases State.slotTurn_cases ((s.skipRun s.sched.remainingSlots).1.lastSlotFinished t) t _
            with ⟨sl, -, h'⟩ | ⟨-, h'⟩ <;> rw [h']
          · simp [State.takeSlot, State.putWork, State.setSched, State.setConv]
          · unfold State.chooseOutside
            rw [State.takeInterstitial_frame]
            simp
        · unfold State.chooseOutside
          rw [State.takeInterstitial_frame]
          simp
  · unfold State.chooseOutside
    rw [State.takeInterstitial_frame]

section choose

variable (s : State) (t : Nat)

@[simp] theorem State.choose_planMark : (s.choose t).conv.planMark = s.conv.planMark := by
  rw [State.choose_frame]

@[simp] theorem State.choose_results : (s.choose t).results = s.results := by
  rw [State.choose_frame]

@[simp] theorem State.choose_sessions : (s.choose t).sessions = s.sessions := by
  rw [State.choose_frame]

@[simp] theorem State.choose_ports : (s.choose t).ports = s.ports := by rw [State.choose_frame]

@[simp] theorem State.choose_rstnAsserted : (s.choose t).rstnAsserted = s.rstnAsserted := by
  rw [State.choose_frame]

@[simp] theorem State.choose_analog : (s.choose t).analog = s.analog := by rw [State.choose_frame]

@[simp] theorem State.choose_pending : (s.choose t).pending = s.pending := by
  rw [State.choose_frame]

/-- While BUSY the arbiter makes no choice (R48). -/
theorem State.chooseIfIdle_busy {s : State} (t : Nat) (h : s.conv.work ≠ none) :
    s.chooseIfIdle t = s := by
  unfold State.chooseIfIdle
  cases hw : s.conv.work with
  | none => exact absurd hw h
  | some w => simp

/-- While IDLE it does (R50). -/
theorem State.chooseIfIdle_idle {s : State} (t : Nat) (h : s.conv.work = none) :
    s.chooseIfIdle t = s.choose t := by
  simp [State.chooseIfIdle, h]

@[simp] theorem State.chooseIfIdle_planMark :
    (s.chooseIfIdle t).conv.planMark = s.conv.planMark := by
  unfold State.chooseIfIdle; split <;> simp

@[simp] theorem State.chooseIfIdle_results : (s.chooseIfIdle t).results = s.results := by
  unfold State.chooseIfIdle; split <;> simp

@[simp] theorem State.chooseIfIdle_sessions : (s.chooseIfIdle t).sessions = s.sessions := by
  unfold State.chooseIfIdle; split <;> simp

@[simp] theorem State.chooseIfIdle_ports : (s.chooseIfIdle t).ports = s.ports := by
  unfold State.chooseIfIdle; split <;> simp

@[simp] theorem State.chooseIfIdle_rstnAsserted :
    (s.chooseIfIdle t).rstnAsserted = s.rstnAsserted := by
  unfold State.chooseIfIdle; split <;> simp

@[simp] theorem State.chooseIfIdle_analog : (s.chooseIfIdle t).analog = s.analog := by
  unfold State.chooseIfIdle; split <;> simp

@[simp] theorem State.chooseIfIdle_pending : (s.chooseIfIdle t).pending = s.pending := by
  unfold State.chooseIfIdle; split <;> simp

end choose

/-- Outside a round a choice is interstitial work alone (R52). -/
theorem State.choose_outside {s : State} (t : Nat) (h : s.sched.inRound = false) :
    s.choose t = s.takeInterstitial t := by
  simp [State.choose, h, State.chooseOutside]

/-! ### The Capture Bank -/

theorem State.takeHead_frame (s : State) (t : Nat) :
    s.takeHead t = s.setCapture (s.takeHead t).capture := by
  unfold State.takeHead
  split
  · unfold State.takeIntoBank; split <;> rfl
  · rfl

theorem State.freeBank_frame (s : State) (t : Nat) :
    s.freeBank t = s.setCapture (s.freeBank t).capture := by
  unfold State.freeBank
  rw [State.takeHead_frame]
  rfl

theorem State.cancel_frame (s : State) (p : Port) (t : Nat) :
    s.cancel p t = s.setCapture (s.cancel p t).capture := by
  unfold State.cancel
  dsimp only
  split
  · rfl
  · split
    · rw [State.freeBank_frame]; rfl
    · rfl
  · repeat' split
    all_goals first | rfl | (rw [State.freeBank_frame]; rfl)

/-! ### Deliveries -/

theorem State.deliverTo_frame (s : State) (p : Port) (w : Work) (slot : Nat) (code : Int) (clip : Bool) :
    s.deliverTo p w slot code clip =
      { s with
        claims := (s.deliverTo p w slot code clip).claims
        results := (s.deliverTo p w slot code clip).results
        events := (s.deliverTo p w slot code clip).events } := by
  unfold State.deliverTo
  split
  · split
    · unfold State.deliverUnder State.handWindowEvent
      dsimp only
      repeat' split
      all_goals first | rfl | (unfold State.streamValue; dsimp only; split <;> rfl)
    · rfl
  · rfl

theorem State.deliverPlan_frame (s : State) (w : Work) (slot : Nat) (code : Int) (clip : Bool) :
    s.deliverPlan w slot code clip =
      { s with
        claims := (s.deliverPlan w slot code clip).claims
        table := s.table.set w.channel (completedEntry code clip w.resolution s.roundNow .plan)
        results := (s.deliverPlan w slot code clip).results
        events := (s.deliverPlan w slot code clip).events } := by
  unfold State.deliverPlan
  rw [State.deliverTo_frame _ .C, State.deliverTo_frame _ .B, State.deliverTo_frame _ .A]
  rfl

theorem State.receiveCaptureValue_frame (s : State) (pos : Nat) (code : Int) (clip : Bool) (t : Nat) :
    s.receiveCaptureValue pos code clip t =
      { s with
        capture := (s.receiveCaptureValue pos code clip t).capture
        results := (s.receiveCaptureValue pos code clip t).results } := by
  unfold State.receiveCaptureValue
  split
  · rfl
  · rfl
  · split
    · rw [State.freeBank_frame]; rfl
    · dsimp only
      split
      · unfold State.completeCapture
        dsimp only
        rw [State.freeBank_frame]; rfl
      · rfl

/-- What the delivery of a result leaves alone (R58 step 2). -/
theorem State.deliverResult_frame (s : State) (w : Work) :
    s.deliverResult w =
      { s with
        claims := (s.deliverResult w).claims
        capture := (s.deliverResult w).capture
        table := (s.deliverResult w).table
        results := (s.deliverResult w).results
        events := (s.deliverResult w).events } := by
  unfold State.deliverResult
  split
  · rw [State.deliverPlan_frame]
  · unfold State.deliverDemand; dsimp only; split <;> rfl
  · rw [State.receiveCaptureValue_frame]

theorem State.finishSlot_frame (s : State) (w : Work) :
    s.finishSlot w =
      { s with
        claims := (s.finishSlot w).claims
        sched := (s.finishSlot w).sched
        table := (s.finishSlot w).table
        events := (s.finishSlot w).events } := by
  unfold State.finishSlot
  repeat' split
  all_goals first | rfl | rw [State.lastSlotFinished_frame]

theorem State.takeDeferredBoundary_frame (s : State) (t : Nat) :
    s.takeDeferredBoundary t =
      { s with
        claims := (s.takeDeferredBoundary t).claims
        sched := (s.takeDeferredBoundary t).sched
        table := (s.takeDeferredBoundary t).table
        events := (s.takeDeferredBoundary t).events } := by
  unfold State.takeDeferredBoundary
  split
  · rw [State.boundary_frame]; rfl
  · rfl

/-- What a completion leaves alone: the sessions, the ports and the world's own (R58). -/
theorem State.complete_frame (s : State) (w : Work) :
    s.complete w =
      { s with
        claims := (s.complete w).claims
        sched := (s.complete w).sched
        conv := (s.complete w).conv
        demand := (s.complete w).demand
        capture := (s.complete w).capture
        table := (s.complete w).table
        results := (s.complete w).results
        events := (s.complete w).events } := by
  unfold State.complete State.releaseWork
  rw [State.choose_frame, State.takeDeferredBoundary_frame, State.finishSlot_frame,
    State.deliverResult_frame]
  rfl

/-! ### Teardown -/

/-- What a teardown leaves alone: the ports and the world's own (R135). -/
theorem State.teardown_frame (s : State) (p : Port) (t : Nat) :
    s.teardown p t =
      { s with
        claims := (s.teardown p t).claims
        sched := (s.teardown p t).sched
        conv := (s.teardown p t).conv
        demand := (s.teardown p t).demand
        capture := (s.teardown p t).capture
        table := (s.teardown p t).table
        results := s.results.set p (s.resultsOf p).teardown
        events := (s.teardown p t).events
        sessions := s.sessions.set p (s.sessionOf p).close } := by
  have h : (s.teardownBlocks p).teardownCapture p t =
      (s.teardownBlocks p).setCapture ((s.teardownBlocks p).teardownCapture p t).capture := by
    unfold State.teardownCapture
    dsimp only
    split
    · rw [State.cancel_frame]; rfl
    · rfl
  unfold State.teardown State.chooseIfIdle
  split
  · rw [State.choose_frame, h]; rfl
  · rw [h]; rfl

section teardown

variable (s : State) (p : Port) (t : Nat)

@[simp] theorem State.teardown_ports : (s.teardown p t).ports = s.ports := by
  rw [State.teardown_frame]

@[simp] theorem State.teardown_sessions :
    (s.teardown p t).sessions = s.sessions.set p (s.sessionOf p).close := by
  rw [State.teardown_frame]

@[simp] theorem State.teardown_results :
    (s.teardown p t).results = s.results.set p (s.resultsOf p).teardown := by
  rw [State.teardown_frame]

@[simp] theorem State.teardown_rstnAsserted : (s.teardown p t).rstnAsserted = s.rstnAsserted := by
  rw [State.teardown_frame]

@[simp] theorem State.teardown_analog : (s.teardown p t).analog = s.analog := by
  rw [State.teardown_frame]

@[simp] theorem State.teardown_pending : (s.teardown p t).pending = s.pending := by
  rw [State.teardown_frame]

end teardown

end Sys2Proof.Machine
end

