-- ==== Sys2Proof/Laws/Requests.lean ====
section
/-! SUPPORT. How an executing request is answered, said once for all kinds (R150, R161). -/

namespace Sys2Proof.Machine

variable {α : Type} {s : State} {p : Port} {f : Frame} {k : Kind}
  {read : List Byte → Option α} {owner : State → α → Answer}

/-- The state with a reply made READY, when the ports are as before but for that. -/
theorem State.makeReady_answered (u : State) (st : Status) (payload : List Byte)
    (h : u.ports = s.ports) :
    u.makeReady p (replyTo f st payload) = { u with ports := s.answered p f st.code payload } := by
  simp only [State.makeReady, State.setPort, HostPort.makeReady, replyTo, State.answered, State.portOf, h]

/-- A request that passes the common checks is its owner's to answer. -/
theorem State.serve_asks {x : α} (h : s.Asks p f k) (hr : read f.payload = some x)
    (hp : (owner s x).state.ports = s.ports) :
    s.serve p k read owner =
      { (owner s x).state with
        ports := s.answered p f (owner s x).status.code (owner s x).payload } := by
  obtain ⟨h1, h2, h3, h4⟩ := h
  have hc : s.commonRefusal p k f = none := by
    unfold State.commonRefusal
    have : (k.needsSession && !s.sessionOpen p) = false := by
      cases hk : k.needsSession with
      | false => rfl
      | true => simp [State.sessionOpen, h3 hk]
    simp [this, h4]
  simp only [State.serve, h1, h2, if_true, State.answerOf, hc, hr]
  exact State.makeReady_answered _ _ _ hp

/-- The same for a refusal by the owner: nothing else changes. -/
theorem State.serve_refused {x : α} {st : Status} (h : s.Asks p f k) (hr : read f.payload = some x)
    (ho : owner s x = refuse s st) :
    s.serve p k read owner = { s with ports := s.answered p f st.code [] } := by
  rw [State.serve_asks h hr (by rw [ho]; rfl), ho]
  rfl

/-- A request that fails a common check is refused by it, and nothing else changes. -/
theorem State.serve_common {st : Status} (h1 : (s.portOf p).request = some f)
    (h2 : kindOf f.kind = some k) (hc : s.commonRefusal p k f = some st) :
    s.serve p k read owner = { s with ports := s.answered p f st.code [] } := by
  simp only [State.serve, h1, h2, if_true, State.answerOf, hc]
  exact State.makeReady_answered s st [] rfl

/-- A request whose fields do not read is refused BAD_FIELD, and nothing else changes. -/
theorem State.serve_badField (h1 : (s.portOf p).request = some f) (h2 : kindOf f.kind = some k)
    (hc : s.commonRefusal p k f = none) (hr : read f.payload = none) :
    s.serve p k read owner = { s with ports := s.answered p f 6 [] } := by
  simp only [State.serve, h1, h2, if_true, State.answerOf, hc, hr]
  exact State.makeReady_answered s .badField [] rfl

/-- A port with no request EXECUTING has nothing to take (log entry 4). -/
theorem State.serve_none (h : (s.portOf p).request = none) : s.serve p k read owner = s := by
  simp [State.serve, h]

/-- All a request can do: leave the state as it is, or make a reply READY on what its owner, or no one,
leaves. -/
theorem State.serve_cases :
    s.serve p k read owner = s ∨
      ∃ f, (s.portOf p).request = some f ∧ kindOf f.kind = some k ∧
        ((∃ st, s.serve p k read owner = s.makeReady p (replyTo f st [])) ∨
          ∃ x, s.commonRefusal p k f = none ∧ read f.payload = some x ∧
            s.serve p k read owner =
              (owner s x).state.makeReady p (replyTo f (owner s x).status (owner s x).payload)) := by
  cases h : (s.portOf p).request with
  | none => exact .inl (State.serve_none h)
  | some f =>
    by_cases hk : kindOf f.kind = some k
    · refine .inr ⟨f, rfl, hk, ?_⟩
      cases hc : s.commonRefusal p k f with
      | some st => exact .inl ⟨st, by simp [State.serve, h, hk, State.answerOf, hc, refuse]⟩
      | none =>
        cases hr : read f.payload with
        | none => exact .inl ⟨.badField, by simp [State.serve, h, hk, State.answerOf, hc, hr, refuse]⟩
        | some x =>
          exact .inr ⟨x, rfl, rfl, by simp [State.serve, h, hk, State.answerOf, hc, hr]⟩
    · exact .inl (by simp [State.serve, h, hk])

end Sys2Proof.Machine
end

