-- ==== Sys2Proof/Laws/Claims.lean ====
section
/-! SUPPORT. Reading the Claim Table after writing it, and what its searches over sessions say
(chapter 1). -/

namespace Sys2Proof.Machine

/-! ### Cells -/

theorem ClaimTable.get_set (ct : ClaimTable) (p q : Port) (c d : Channel) (x : Option Claim) :
    (ct.set p c x).get q d = if q = p ∧ d = c then x else ct.get q d := by
  simp only [ClaimTable.set, ClaimTable.get, PerPort.get_set]
  by_cases h : q = p
  · subst h; simp [PerChannel.get_set]
  · simp [h]

@[simp] theorem ClaimTable.get_mapCells (ct : ClaimTable)
    (g : Port → Channel → Option Claim → Option Claim) (p : Port) (c : Channel) :
    (ct.mapCells g).get p c = g p c (ct.get p c) := by
  simp [ClaimTable.mapCells, ClaimTable.get]

@[simp] theorem ClaimTable.get_activateAll (ct : ClaimTable) (p : Port) (c : Channel) :
    ct.activateAll.get p c = (ct.get p c).map Claim.activate :=
  ClaimTable.get_mapCells _ _ _ _

theorem ClaimTable.get_removeSession (ct : ClaimTable) (p q : Port) (c : Channel) :
    (ct.removeSession p).get q c = if q = p then none else ct.get q c := by
  simp only [ClaimTable.removeSession, ClaimTable.get, PerPort.get_set]
  by_cases h : q = p <;> simp [h]

@[simp] theorem ClaimTable.get_empty (p : Port) (c : Channel) : ClaimTable.empty.get p c = none := by
  simp [ClaimTable.empty, ClaimTable.get]

theorem ClaimTable.ext_get {x y : ClaimTable} (h : ∀ p c, x.get p c = y.get p c) : x = y := by
  cases x; cases y
  congr 1
  exact PerPort.ext_get fun p => PerChannel.ext_get fun c => h p c

/-! ### Searches over sessions and channels -/

theorem ClaimTable.mem_onChannel {ct : ClaimTable} {c : Channel} {cl : Claim} :
    cl ∈ ct.onChannel c ↔ ∃ p, ct.get p c = some cl := by
  simp only [ClaimTable.onChannel, List.mem_filterMap]
  exact ⟨fun ⟨p, _, h⟩ => ⟨p, h⟩, fun ⟨p, h⟩ => ⟨p, mem_allPorts p, h⟩⟩

/-- A channel is free exactly if no session has a claim on it (R6). -/
theorem ClaimTable.profile_none {ct : ClaimTable} {c : Channel} :
    ct.profile c = none ↔ ∀ p, ct.get p c = none := by
  have h : ct.profile c = none ↔ ct.onChannel c = [] := by
    simp only [ClaimTable.profile]
    cases ct.onChannel c <;> simp [mergeProfile]
  rw [h, ClaimTable.onChannel, List.filterMap_eq_nil_iff]
  exact ⟨fun h p => h p (mem_allPorts p), fun h p _ => h p⟩

theorem ClaimTable.holdsClaim_iff {ct : ClaimTable} {p : Port} :
    ct.holdsClaim p = true ↔ ∃ c cl, ct.get p c = some cl := by
  simp only [ClaimTable.holdsClaim, List.any_eq_true, Option.isSome_iff_exists]
  exact ⟨fun ⟨c, _, h⟩ => ⟨c, h⟩, fun ⟨c, h⟩ => ⟨c, mem_allChannels c, h⟩⟩

theorem ClaimTable.isEmpty_iff {ct : ClaimTable} :
    ct.isEmpty = true ↔ ∀ p c, ct.get p c = none := by
  simp only [ClaimTable.isEmpty, Bool.not_eq_true', List.any_eq_false, ClaimTable.holdsClaim_iff]
  refine ⟨fun h p c => ?_, fun h p _ => by simp [h]⟩
  cases hc : ct.get p c with
  | none => rfl
  | some cl => exact absurd ⟨c, cl, hc⟩ (h p (mem_allPorts p))

/-- Check 1 of R17 passes exactly if every claim of another session on the channel has the range. -/
theorem State.rangeConflict_iff (s : State) (p : Port) (rq : ClaimRequest) :
    s.claims.rangeConflict p rq = false ↔ s.SameRange p rq := by
  simp only [ClaimTable.rangeConflict, State.SameRange, List.any_eq_false, State.claimOf]
  constructor
  · intro h q cl hq hc
    have := h q (mem_allPorts q)
    simpa [hq, hc] using this
  · intro h q _
    cases hc : s.claims.get q rq.channel with
    | none => simp
    | some cl =>
      by_cases hq : q = p
      · simp [hq]
      · simp [hq, h q cl hq hc]

/-! ### What depends on the terms alone

Two tables whose claims have the same terms, cell by cell, have the same profiles, costs and holders. -/

section congr

variable {x y : ClaimTable}

theorem ClaimTable.onChannel_terms
    (h : ∀ p c, (x.get p c).map Claim.terms = (y.get p c).map Claim.terms) (c : Channel) :
    (x.onChannel c).map Claim.terms = (y.onChannel c).map Claim.terms := by
  simp only [ClaimTable.onChannel, List.map_filterMap, h]

theorem ClaimTable.profile_congr
    (h : ∀ p c, (x.get p c).map Claim.terms = (y.get p c).map Claim.terms) (c : Channel) :
    x.profile c = y.profile c := by
  have key : ∀ (l m : List Claim) (f : Profile), l.map Claim.terms = m.map Claim.terms →
      l.foldl Profile.merge f = m.foldl Profile.merge f := by
    intro l
    induction l with
    | nil => intro m f h; cases m <;> simp_all
    | cons a l ih =>
      intro m f h
      cases m with
      | nil => simp at h
      | cons b m =>
        simp only [List.map_cons, List.cons.injEq] at h
        have : f.merge a = f.merge b := by simp only [Profile.merge, h.1]
        simp only [List.foldl_cons, this, ih m _ h.2]
  have h' := ClaimTable.onChannel_terms h c
  simp only [ClaimTable.profile]
  generalize x.onChannel c = l at *
  generalize y.onChannel c = m at *
  cases l with
  | nil => cases m <;> simp_all
  | cons a l =>
    cases m with
    | nil => simp at h'
    | cons b m =>
      simp only [List.map_cons, List.cons.injEq] at h'
      have : a.profile = b.profile := by simp only [Claim.profile, h'.1]
      simp only [mergeProfile, this, key l m _ h'.2]

theorem ClaimTable.isSome_congr
    (h : ∀ p c, (x.get p c).map Claim.terms = (y.get p c).map Claim.terms) (p : Port) (c : Channel) :
    (x.get p c).isSome = (y.get p c).isSome := by
  simpa using congrArg Option.isSome (h p c)

theorem ClaimTable.holdsClaim_congr
    (h : ∀ p c, (x.get p c).map Claim.terms = (y.get p c).map Claim.terms) (p : Port) :
    x.holdsClaim p = y.holdsClaim p := by
  simp only [ClaimTable.holdsClaim, ClaimTable.isSome_congr h]

theorem ClaimTable.isEmpty_congr
    (h : ∀ p c, (x.get p c).map Claim.terms = (y.get p c).map Claim.terms) :
    x.isEmpty = y.isEmpty := by
  simp only [ClaimTable.isEmpty, funext (ClaimTable.holdsClaim_congr h)]

theorem ClaimTable.reserve_congr
    (h : ∀ p c, (x.get p c).map Claim.terms = (y.get p c).map Claim.terms) :
    x.reserve = y.reserve := by
  have hn : x.isNormal = y.isNormal := by
    funext c; simp only [ClaimTable.isNormal, ClaimTable.profile_congr h]
  have hp : x.isPriority = y.isPriority := by
    funext c; simp only [ClaimTable.isPriority, ClaimTable.profile_congr h]
  have hc : x.isClaimed = y.isClaimed := by
    funext c
    have := congrArg List.isEmpty (ClaimTable.onChannel_terms h c)
    simpa [ClaimTable.isClaimed] using this
  have hw : x.worstCost = y.worstCost := by
    funext c
    have e : Claim.cost = (fun t : ClaimTerms => cost t.resolution t.hold) ∘ Claim.terms := rfl
    simp only [ClaimTable.worstCost, e, ← List.map_map, ClaimTable.onChannel_terms h c]
  simp only [ClaimTable.reserve, hn, hp, hc, hw]

theorem intervalOf_congr
    (h : ∀ p c, (x.get p c).map Claim.terms = (y.get p c).map Claim.terms)
    (sessions : PerPort Session) : intervalOf sessions x = intervalOf sessions y := by
  simp only [intervalOf, paceOf, ClaimTable.holdsClaim_congr h]

end congr

end Sys2Proof.Machine
end

