-- ==== Sys2Proof/Laws/Rounds.lean ====
section
/-! SUPPORT. The round boundary's two cases, and what the slot list is made of (chapter 2). -/

namespace Sys2Proof.Machine

theorem State.boundary_empty {s : State} (t : Nat) (h : s.claims.isEmpty = true) :
    s.boundary t = s.stopScheduler := by
  simp [State.boundary, h]

theorem State.boundary_nonempty {s : State} (t : Nat) (h : s.claims.isEmpty = false) :
    s.boundary t = s.takeSnapshot t := by
  simp [State.boundary, h]

/-- The claims after a boundary: every one ACTIVE (R33). -/
theorem State.boundary_claims (s : State) (t : Nat) (p : Port) (c : Channel) :
    (s.boundary t).claims.get p c = (s.claims.get p c).map Claim.activate := by
  unfold State.boundary
  split
  · rename_i h
    rw [ClaimTable.isEmpty_iff.mp h]
    simp [State.stopScheduler, ClaimTable.isEmpty_iff.mp h]
  · simp [State.takeSnapshot]

/-- No boundary leaves LATE, and only one over an empty table leaves STOPPED (2.3). -/
theorem State.boundary_state (s : State) (t : Nat) :
    (s.boundary t).sched.state ≠ .late ∧
      ((s.boundary t).sched.state = .stopped ↔ s.claims.isEmpty = true) := by
  cases h : s.claims.isEmpty with
  | true => simp [State.boundary_empty t h, State.stopScheduler]
  | false =>
    rw [State.boundary_nonempty t h]
    simp only [State.takeSnapshot, Scheduler.startRound]
    split <;> simp

@[simp] theorem State.boundary_startPending (s : State) (t : Nat) :
    (s.boundary t).sched.startPending = s.sched.startPending := by
  cases h : s.claims.isEmpty with
  | true => rw [State.boundary_empty t h]; simp only [State.stopScheduler]
  | false =>
    rw [State.boundary_nonempty t h]
    simp only [State.takeSnapshot, Scheduler.startRound]

@[simp] theorem State.boundary_ticksLost (s : State) (t : Nat) :
    (s.boundary t).sched.ticksLost = s.sched.ticksLost := by
  cases h : s.claims.isEmpty with
  | true => rw [State.boundary_empty t h]; simp only [State.stopScheduler]
  | false =>
    rw [State.boundary_nonempty t h]
    simp only [State.takeSnapshot, Scheduler.startRound]

/-! ### The slot list (R38) -/

theorem numberSlots_getElem? (l : List (Channel × Profile)) (i j : Nat) :
    (numberSlots i l)[j]? = (l[j]?).map fun x => ⟨x.1, i + j, x.2⟩ := by
  induction l generalizing i j with
  | nil => simp [numberSlots]
  | cons x l ih =>
    cases j with
    | zero => simp [numberSlots]
    | succ j =>
      simp only [numberSlots, List.getElem?_cons_succ, ih]
      congr 1; funext y; congr 1; omega

@[simp] theorem numberSlots_length (l : List (Channel × Profile)) (i : Nat) :
    (numberSlots i l).length = l.length := by
  induction l generalizing i with
  | nil => rfl
  | cons x l ih => simp [numberSlots, ih]

theorem planChannels_map (plan : Plan) (pick : Channel → Profile → Bool) :
    (planChannels plan pick).map (·.1) =
      allChannels.filter fun c => (plan.get c).any fun e => pick c e.profile := by
  unfold planChannels
  generalize allChannels = l
  induction l with
  | nil => rfl
  | cons c l ih =>
    simp only [List.filterMap_cons, List.filter_cons]
    cases plan.get c with
    | none => simpa using ih
    | some e => cases h : pick c e.profile <;> simp [h, ih]

theorem planChannels_mem {plan : Plan} {pick : Channel → Profile → Bool} {x : Channel × Profile}
    (h : x ∈ planChannels plan pick) : ∃ e, plan.get x.1 = some e ∧ e.profile = x.2 := by
  simp only [planChannels, List.mem_filterMap] at h
  obtain ⟨c, _, h⟩ := h
  cases he : plan.get c with
  | none => simp [he] at h
  | some e =>
    cases hp : pick c e.profile
    · simp [he, hp] at h
    · simp [he, hp] at h; subst h; exact ⟨e, he, rfl⟩

/-! ### The events of a boundary

Picking one session's events out of a list made per holder. -/

theorem filterMap_own (p : Port) (q : List Port) (e : Event) :
    ((q.map fun x => (x, e)).filterMap fun x => if x.1 = p then some x.2 else none) =
      (q.filter (· = p)).map fun _ => e := by
  induction q with
  | nil => rfl
  | cons x q ih => by_cases h : x = p <;> simp [h, ih]

theorem filter_allPorts (p : Port) (g : Port → Bool) :
    ((allPorts.filter g).filter (· = p)) = if g p then [p] else [] := by
  cases p <;> cases ha : g .A <;> cases hb : g .B <;> cases hc : g .C <;> simp [allPorts, ha, hb, hc]

/-- The ROUND_SLIP events of a late round that are a session's own (R29). -/
theorem State.slipEvents_own (s : State) (p : Port) :
    (s.slipEvents.filterMap fun x => if x.1 = p then some x.2 else none) = s.slipFor p := by
  simp only [State.slipEvents, filterMap_own, ClaimTable.claimHolders, filter_allPorts, State.slipFor]
  split <;> rfl

end Sys2Proof.Machine
end

