-- ==== Sys2Proof/Laws/Deliveries.lean ====
section
/-! SUPPORT. What the delivery of a plan value does to each session's records, events and claims
(R62 to R64, R115). -/

namespace Sys2Proof.Machine

/-- What handing over a WINDOW event does. -/
theorem State.handWindowEvent_eventsOf (s : State) (p q : Port) (e : Option Event) :
    (s.handWindowEvent p e).eventsOf q =
      if q = p then e.toList.foldl EventQueue.append (s.eventsOf p) else s.eventsOf q := by
  cases e with
  | none => simp [State.handWindowEvent]; rintro rfl; rfl
  | some e => simp [State.handWindowEvent, State.handEvent, State.setEvents_eventsOf]

theorem State.handWindowEvent_frame (s : State) (p : Port) (e : Option Event) :
    s.handWindowEvent p e = { s with events := (s.handWindowEvent p e).events } := by
  cases e <;> rfl

/-- What a value delivered under a claim does: records, events and claims (R64, R115, R117). -/
theorem State.deliverUnder_spec (s : State) (p : Port) (c : Channel) (cl : Claim) (v : Int) (slot : Nat)
    (clip : Bool) :
    let u := s.deliverUnder p c cl v slot clip
    (∀ q,
      u.resultsOf q =
        if q = p ∧ cl.terms.delivery = .stream then
          (s.resultsOf p).handRecord
            (.plan c v cl.terms.resolution s.roundNow slot cl.gap cl.terms.priority clip)
        else s.resultsOf q) ∧
      (∀ q,
        u.eventsOf q =
          if q = p then
            (cl.windowEvent c v s.roundNow).toList.foldl EventQueue.append (s.eventsOf p)
          else s.eventsOf q) ∧
      ∀ q d,
        u.claimOf q d =
          if q = p ∧ d = c then
            some
              { cl with
                windowState := (cl.watch v).state
                candidate := (cl.watch v).candidate
                gap :=
                  if cl.terms.delivery = .stream ∧ (s.resultsOf p).accepts = true then 0 else cl.gap }
          else s.claimOf q d := by
  intro u
  unfold u State.deliverUnder
  have hw := fun q => s.handWindowEvent_eventsOf p q (cl.windowEvent c v s.roundNow)
  have hf := s.handWindowEvent_frame p (cl.windowEvent c v s.roundNow)
  have hr : ∀ q, (s.handWindowEvent p (cl.windowEvent c v s.roundNow)).resultsOf q = s.resultsOf q := by
    rw [hf]; intro q; rfl
  have hn : (s.handWindowEvent p (cl.windowEvent c v s.roundNow)).roundNow = s.roundNow := by
    rw [hf]; rfl
  clear hf
  dsimp only
  split
  · rename_i hd
    unfold State.streamValue
    dsimp only
    refine ⟨fun q => ?_, fun q => ?_, fun q d => ?_⟩
    · have e : ∀ x,
          (cl.afterWatch v).planRecord c v
              ((s.handWindowEvent p (cl.windowEvent c v s.roundNow)).setClaims x).roundNow slot clip =
            .plan c v cl.terms.resolution s.roundNow slot cl.gap cl.terms.priority clip := by
        intro x
        have : ((s.handWindowEvent p (cl.windowEvent c v s.roundNow)).setClaims x).roundNow =
            s.roundNow := hn
        rw [this]; rfl
      rw [e]
      split <;>
        simp only [State.handRecord, State.setClaims_resultsOf, State.setResults_resultsOf, hr, hd, and_true]
    · split <;> simp [State.handRecord, hw]
    · split <;>
        simp only [State.setClaims_claimOf, State.handRecord, State.setResults_claimOf,
          State.setClaims_claims, ClaimTable.get_set, Claim.resetGap, Claim.afterWatch, hd] <;>
        split <;> simp_all [State.claimOf]
  · rename_i hd
    refine ⟨fun q => ?_, fun q => ?_, fun q d => ?_⟩
    · simp [hr, hd]
    · simp [hw]
    · simp only [State.setClaims_claimOf, ClaimTable.get_set, hd]
      split <;> simp_all [Claim.afterWatch, State.claimOf]

/-- What the delivery of a plan value to one session does (R63, R64). -/
theorem State.deliverTo_spec (s : State) (p : Port) (w : Work) (slot : Nat) :
    let u := s.deliverTo p w slot (s.workCode w) (s.workClip w)
    (∀ q, u.resultsOf q = if q = p then s.queueAfter p w slot else s.resultsOf q) ∧
      (∀ q,
        u.eventsOf q =
          if q = p then (s.windowEventFor p w).foldl EventQueue.append (s.eventsOf p)
          else s.eventsOf q) ∧
      ∀ q d,
        u.claimOf q d =
          if q = p ∧ d = w.channel then
            match s.receiver p w with
            | some cl => some (s.claimAfter p w cl)
            | none => s.claimOf q d
          else s.claimOf q d := by
  intro u
  unfold u State.deliverTo
  have none_case : s.receiver p w = none →
      (∀ q, s.resultsOf q = if q = p then s.queueAfter p w slot else s.resultsOf q) ∧
        (∀ q,
          s.eventsOf q =
            if q = p then (s.windowEventFor p w).foldl EventQueue.append (s.eventsOf p)
            else s.eventsOf q) ∧
        ∀ q d,
          s.claimOf q d =
            if q = p ∧ d = w.channel then
              match s.receiver p w with
              | some cl => some (s.claimAfter p w cl)
              | none => s.claimOf q d
            else s.claimOf q d := by
    intro hr
    simp only [State.queueAfter, State.windowEventFor, hr]
    refine ⟨fun q => ?_, fun q => ?_, fun q d => by simp⟩ <;>
      · split
        · subst_vars; rfl
        · rfl
  cases hc : s.claimOf p w.channel with
  | none => exact none_case (by simp [State.receiver, hc])
  | some cl =>
    by_cases hv : cl.receives w.channel s.roundNow = true
    · have hr : s.receiver p w = some cl := by simp [State.receiver, hc, hv]
      simp only [hv, if_true, State.queueAfter, State.windowEventFor, hr]
      obtain ⟨a, b, c⟩ :=
        s.deliverUnder_spec p w.channel cl (reduceCode (s.workCode w) w.resolution cl.terms.resolution)
          slot (s.workClip w)
      refine ⟨fun q => ?_, fun q => ?_, fun q d => ?_⟩
      · rw [a]
        cases hd : cl.terms.delivery <;> simp [State.planRecordFor, State.valueFor]
        rintro rfl; rfl
      · rw [b]; rfl
      · rw [c]; rfl
    · simpa [hv] using none_case (by simp [State.receiver, hc, hv])

/-- What the delivery of a plan value to all sessions does: each receives as if it were alone
(R63, R64). -/
theorem State.deliverPlan_spec (s : State) (w : Work) (slot : Nat) :
    let u := s.deliverPlan w slot (s.workCode w) (s.workClip w)
    (∀ q, u.resultsOf q = s.queueAfter q w slot) ∧
      (∀ q, u.eventsOf q = (s.windowEventFor q w).foldl EventQueue.append (s.eventsOf q)) ∧
      ∀ q d,
        u.claimOf q d =
          if d = w.channel then
            match s.receiver q w with
            | some cl => some (s.claimAfter q w cl)
            | none => s.claimOf q d
          else s.claimOf q d := by
  intro u
  have step : ∀ (a : State) (p : Port), a.sched = s.sched → a.analog = s.analog → a.capture = s.capture →
      let b := a.deliverTo p w slot (s.workCode w) (s.workClip w)
      b.sched = s.sched ∧ b.analog = s.analog ∧ b.capture = s.capture ∧
        (∀ q, b.resultsOf q = if q = p then a.queueAfter p w slot else a.resultsOf q) ∧
        (∀ q,
          b.eventsOf q =
            if q = p then (a.windowEventFor p w).foldl EventQueue.append (a.eventsOf p)
            else a.eventsOf q) ∧
        ∀ q d,
          b.claimOf q d =
            if q = p ∧ d = w.channel then
              match a.receiver p w with
              | some cl => some (a.claimAfter p w cl)
              | none => a.claimOf q d
            else a.claimOf q d := by
    intro a p h1 h2 h3 b
    have hi : a.inputOf w = s.inputOf w := by
      simp only [State.inputOf, State.measure, State.ain, State.amid, h2, h3]
    have hx : s.workCode w = a.workCode w := by simp only [State.workCode, hi]
    have hy : s.workClip w = a.workClip w := by simp only [State.workClip, hi]
    unfold b
    rw [hx, hy]
    refine ⟨?_, ?_, ?_, a.deliverTo_spec p w slot⟩ <;> rw [State.deliverTo_frame] <;> assumption
  have local_ : ∀ (a : State) (q : Port), a.sched = s.sched → a.analog = s.analog →
      a.capture = s.capture → a.resultsOf q = s.resultsOf q →
      (∀ d, a.claimOf q d = s.claimOf q d) →
      a.queueAfter q w slot = s.queueAfter q w slot ∧ a.windowEventFor q w = s.windowEventFor q w ∧
        a.receiver q w = s.receiver q w ∧ ∀ cl, a.claimAfter q w cl = s.claimAfter q w cl := by
    intro a q h1 h2 h3 h4 h5
    have hi : a.inputOf w = s.inputOf w := by
      simp only [State.inputOf, State.measure, State.ain, State.amid, h2, h3]
    have hx : a.workCode w = s.workCode w := by simp only [State.workCode, hi]
    have hy : a.workClip w = s.workClip w := by simp only [State.workClip, hi]
    have hn : a.roundNow = s.roundNow := by simp only [State.roundNow, h1]
    have hr : a.receiver q w = s.receiver q w := by simp only [State.receiver, h5, hn]
    have hv : ∀ cl, a.valueFor w cl = s.valueFor w cl := by intro cl; simp only [State.valueFor, hx]
    refine ⟨?_, ?_, hr, fun cl => by simp only [State.claimAfter, hv, h4]⟩
    · simp only [State.queueAfter, hr, h4, State.planRecordFor, hv, hn, hy]
    · simp only [State.windowEventFor, hr, hv, hn]
  let s0 := s.writeEntry w.channel (s.workCode w) (s.workClip w) w.resolution .plan
  obtain ⟨a1, a2, a3, a4, a5, a6⟩ := step s0 .A rfl rfl rfl
  obtain ⟨b1, b2, b3, b4, b5, b6⟩ := step _ .B a1 a2 a3
  obtain ⟨-, -, -, c4, c5, c6⟩ := step _ .C b1 b2 b3
  obtain ⟨l1, l2, l3, l4⟩ := local_ s0 .A rfl rfl rfl rfl fun _ => rfl
  obtain ⟨m1, m2, m3, m4⟩ := local_ (s0.deliverTo .A w slot (s.workCode w) (s.workClip w)) .B a1 a2 a3
    (by rw [a4]; rfl) (fun d => by rw [a6]; simp; rfl)
  obtain ⟨n1, n2, n3, n4⟩ := local_
    ((s0.deliverTo .A w slot (s.workCode w) (s.workClip w)).deliverTo .B w slot (s.workCode w)
      (s.workClip w)) .C b1 b2 b3
    (by rw [b4, a4]; rfl) (fun d => by rw [b6, a6]; simp; rfl)
  have r0 : ∀ q, s0.resultsOf q = s.resultsOf q := fun _ => rfl
  have e0 : ∀ q, s0.eventsOf q = s.eventsOf q := fun _ => rfl
  have k0 : ∀ q d, s0.claimOf q d = s.claimOf q d := fun _ _ => rfl
  have hu : u = ((s0.deliverTo .A w slot (s.workCode w) (s.workClip w)).deliverTo .B w slot
      (s.workCode w) (s.workClip w)).deliverTo .C w slot (s.workCode w) (s.workClip w) := rfl
  rw [hu]
  refine ⟨fun q => ?_, fun q => ?_, fun q d => ?_⟩
  · rw [c4, b4, a4, n1, m1, l1, r0]; cases q <;> rfl
  · rw [c5, b5, b5, a5, a5, a5, n2, m2, l2, e0, e0, e0]; cases q <;> simp
  · rw [c6, b6, a6, n3, m3, l3, k0]
    cases q <;> by_cases hd : d = w.channel <;> simp [hd, l4, m4, n4]

end Sys2Proof.Machine
end

