-- ==== Sys2Proof/Laws/Arbiter.lean ====
section
/-! SUPPORT. The arbiter's turns at the round's slots, one slot at a time (R51, R54), and the deferred
boundary of a completion (R31). -/

namespace Sys2Proof.Machine

/-! ### The deferred boundary -/

theorem State.takeDeferredBoundary_none {s : State} (t : Nat) (h : s.sched.startPending = false) :
    s.takeDeferredBoundary t = s := by
  simp [State.takeDeferredBoundary, h]

theorem State.takeDeferredBoundary_pending {s : State} (t : Nat) (h : s.sched.startPending = true) :
    s.takeDeferredBoundary t = (s.setSched { s.sched with startPending := false }).boundary t := by
  simp [State.takeDeferredBoundary, h]

/-- Events do not depend on the Converter. -/
theorem State.handEvents_setConv (s : State) (x : Converter) (l : List (Port × Event)) :
    (s.setConv x).handEvents l = (s.handEvents l).setConv x := by
  induction l generalizing s with
  | nil => rfl
  | cons e l ih => simp only [State.handEvents]; rw [← ih]; rfl

/-- A boundary does not depend on the Converter. -/
theorem State.boundary_setConv (s : State) (x : Converter) (t : Nat) :
    (s.setConv x).boundary t = (s.boundary t).setConv x := by
  cases h : s.claims.isEmpty with
  | true =>
    rw [State.boundary_empty t h, State.boundary_empty t (s := s.setConv x) h]; rfl
  | false =>
    rw [State.boundary_nonempty t h, State.boundary_nonempty t (s := s.setConv x) h]
    unfold State.takeSnapshot
    have : (s.setConv x).boundaryEvents = s.boundaryEvents := rfl
    rw [this, State.handEvents_setConv]
    rfl

/-! ### Turns -/

/-- The round's list is at its end: its last slot is finished. -/
theorem State.slotTurn_end {s : State} (t : Nat) (next : State → State)
    (h : s.sched.remainingSlots = []) : s.slotTurn t next = next (s.lastSlotFinished t) := by
  simp only [State.slotTurn, h, State.skipRun]

/-- The offered slot's channel is not held: it is taken. -/
theorem State.slotTurn_take {s : State} {sl : PlanSlot} {rest : List PlanSlot} (t : Nat)
    (next : State → State) (h : s.sched.remainingSlots = sl :: rest)
    (hh : s.isHeld sl.channel = false) : s.slotTurn t next = s.takeSlot sl t := by
  simp only [State.slotTurn, h, State.skipRun, hh, Bool.false_eq_true, if_false]

/-- The offered slot's channel is held: it is skipped, and the turn goes on. -/
theorem State.slotTurn_skip {s : State} {sl : PlanSlot} {rest : List PlanSlot} (t : Nat)
    (next : State → State) (h : s.sched.remainingSlots = sl :: rest)
    (hh : s.isHeld sl.channel = true) : s.slotTurn t next = (s.skipSlot sl).slotTurn t next := by
  have hr : (s.skipSlot sl).sched.remainingSlots = rest := by
    have h' : s.sched.slots.drop s.sched.slotPosition = sl :: rest := h
    simp only [Scheduler.remainingSlots, State.skipSlot, State.setSched_sched]
    rw [← List.drop_drop, h']; rfl
  simp only [State.slotTurn, h, hr, State.skipRun, hh, if_true]

/-- The end of a round that is not LATE (R29). -/
theorem State.lastSlotFinished_running {s : State} (t : Nat) (h : s.sched.state = .running) :
    s.lastSlotFinished t = s.setSched { s.sched with state := .done } := by
  simp only [State.lastSlotFinished, h]

/-- In a RUNNING round skips that finish it leave no round, so only what follows outside a round counts. -/
theorem State.slotTurn_running {s : State} (t : Nat) {f g : State → State}
    (h : s.sched.state = .running) (hfg : ∀ u : State, u.sched.inRound = false → f u = g u) :
    s.slotTurn t f = s.slotTurn t g := by
  rcases State.slotTurn_cases s t f with ⟨sl, h1, h2⟩ | ⟨h1, h2⟩ <;>
    rcases State.slotTurn_cases s t g with ⟨sl', h3, h4⟩ | ⟨h3, h4⟩
  · rw [h1, Option.some.injEq] at h3; subst h3; rw [h2, h4]
  · rw [h1] at h3; cases h3
  · rw [h1] at h3; cases h3
  · rw [h2, h4]
    apply hfg
    have : (s.skipRun s.sched.remainingSlots).1.sched.state = .running := by
      rw [State.skipRun_state, h]
    rw [State.lastSlotFinished_running t this]; rfl

/-- In a round, with no interstitial work to prefer, the arbiter turns to the round's slots (R51). -/
theorem State.choose_plan {s : State} (t : Nat) (hr : s.sched.inRound = true)
    (h : s.conv.planMark = false ∨ s.interstitialEligible = false) : s.choose t = s.planTurn t := by
  simp only [State.choose, hr, if_true]
  rcases h with h | h <;> simp [h]

/-- The second turn of R51 rule 2 is the arbiter's choice where the next round stands. -/
theorem State.planTurn_next {s : State} (t : Nat) (hs : s.sched.state ≠ .late)
    (h : s.conv.planMark = false ∨ s.interstitialEligible = false) :
    (if s.sched.inRound then s.slotTurn t fun u => u.chooseOutside t else s.chooseOutside t) =
      s.choose t := by
  split
  · rename_i hr
    have hrun : s.sched.state = .running := by
      simp only [Scheduler.inRound, Bool.or_eq_true, decide_eq_true_eq] at hr
      exact hr.resolve_right hs
    rw [State.choose_plan t hr h, State.planTurn]
    exact State.slotTurn_running t hrun fun u hu => by simp [hu]
  · rename_i hr
    rw [State.choose_outside t (by simpa using hr)]; rfl

/-! ### Properties that a choice keeps -/

/-- Interstitial work is a capture conversion, a demand, or none (R52). -/
theorem State.takeInterstitial_work (s : State) (t : Nat) :
    s.takeInterstitial t = s ∨
      (∃ cp pos it, s.capture.bank.offer = some (cp, pos, it) ∧
        s.takeInterstitial t = s.takeCaptureWork cp pos it t) ∨
      ∃ d, s.demandOffer = some d ∧ s.takeInterstitial t = s.takeDemand d t := by
  unfold State.takeInterstitial
  split
  · rename_i cp pos it h; exact .inr (.inl ⟨cp, pos, it, h, rfl⟩)
  · split
    · rename_i d h; exact .inr (.inr ⟨d, h, rfl⟩)
    · exact .inl rfl

/-- A property survives a choice if it survives a skip of a held slot, the end of a round, one of the round's
slots taken, a capture conversion taken and a demand taken (R51, R52, R54). -/
theorem State.choose_keeps {P : State → Prop} (s : State) (t : Nat)
    (hskip : ∀ (u : State) sl, P u → u.conv = s.conv → u.isHeld sl.channel = true →
      P (u.skipSlot sl))
    (hlast : ∀ u : State, P u → u.conv = s.conv → P (u.lastSlotFinished t))
    (hslot : ∀ (u : State) sl, P u → u.conv = s.conv → u.sched.inRound = true →
      sl ∈ u.sched.slots → u.isHeld sl.channel = false → P (u.takeSlot sl t))
    (hcap : ∀ (u : State) cp pos it, P u → u.conv = s.conv →
      u.capture.bank.offer = some (cp, pos, it) → P (u.takeCaptureWork cp pos it t))
    (hdem : ∀ (u : State) d, P u → u.conv = s.conv → u.demandOffer = some d →
      P (u.takeDemand d t))
    (hs : P s) : P (s.choose t) := by
  have hint : ∀ u : State, P u → u.conv = s.conv → P (u.takeInterstitial t) := by
    intro u hu hc
    rcases u.takeInterstitial_work t with h | ⟨cp, pos, it, ho, h⟩ | ⟨d, ho, h⟩ <;> rw [h]
    · exact hu
    · exact hcap u _ _ _ hu hc ho
    · exact hdem u _ hu hc ho
  have hrun : ∀ (l : List PlanSlot) (u : State), P u → u.conv = s.conv → P (u.skipRun l).1 := by
    intro l
    induction l with
    | nil => exact fun u hu _ => hu
    | cons sl l ih =>
      intro u hu hc
      simp only [State.skipRun]
      split
      · rename_i hh; exact ih _ (hskip u sl hu hc hh) hc
      · exact hu
  have hturn : ∀ (u : State) (next : State → State), P u → u.conv = s.conv →
      u.sched.inRound = true → (∀ v : State, P v → v.conv = s.conv → P (next v)) →
        P (u.slotTurn t next) := by
    intro u next hu hc hr hn
    rcases State.slotTurn_cases u t next with ⟨sl, h1, h2⟩ | ⟨h1, h2⟩ <;> rw [h2]
    · refine hslot _ _ (hrun _ u hu hc) (by simp [hc]) ?_ ?_ ?_
      · simpa [Scheduler.inRound] using hr
      · have := List.mem_of_mem_drop (State.skipRun_mem u _ h1)
        rw [State.skipRun_frame]; exact this
      · have := State.skipRun_not_held u _ h1
        simpa [State.isHeld] using this
    · exact hn _ (hlast _ (hrun _ u hu hc) (by simp [hc])) (by simp [hc])
  unfold State.choose
  split
  · rename_i hr
    split
    · exact hint s hs rfl
    · unfold State.planTurn
      refine hturn s _ hs rfl hr ?_
      intro v hv hc
      split
      · rename_i hr'; exact hturn v _ hv hc hr' fun w hw hc' => hint w hw hc'
      · exact hint v hv hc
  · exact hint s hs rfl

/-- The same for the choice of an IDLE Converter. -/
theorem State.chooseIfIdle_keeps {P : State → Prop} (s : State) (t : Nat)
    (h : s.conv.work = none → P (s.choose t)) (hs : P s) : P (s.chooseIfIdle t) := by
  unfold State.chooseIfIdle
  split
  · rename_i hw; exact h (by simpa using hw)
  · exact hs

end Sys2Proof.Machine
end

