-- ==== Sys2Proof/Laws/Captures.lean ====
section
/-! SUPPORT. What taking the head of the capture list does (R81, R82), and the capture list by session
(R77). -/

namespace Sys2Proof.Machine

theorem State.takeHead_free {s : State} {cp : Capture} {rest : List Capture} (t : Nat)
    (hb : s.capture.bank = .free) (hl : s.capture.list = cp :: rest) :
    s.takeHead t = s.takeIntoBank cp t := by
  simp only [State.takeHead, hb, hl]

theorem State.takeHead_other {s : State} (t : Nat)
    (h : s.capture.bank ≠ .free ∨ s.capture.list = []) : s.takeHead t = s := by
  unfold State.takeHead
  split
  · rename_i hb hl
    rcases h with h | h
    · exact absurd hb h
    · rw [h] at hl; cases hl
  · rfl

/-- Taking the head does not depend on the Converter. -/
theorem State.takeHead_setConv (s : State) (x : Converter) (t : Nat) :
    (s.setConv x).takeHead t = (s.takeHead t).setConv x := by
  by_cases h : s.capture.bank ≠ .free ∨ s.capture.list = []
  · rw [State.takeHead_other t h, State.takeHead_other t (s := s.setConv x) h]
  · simp only [not_or, not_not] at h
    obtain ⟨cp, rest, hl⟩ := List.exists_cons_of_ne_nil h.2
    rw [State.takeHead_free t h.1 hl, State.takeHead_free t (s := s.setConv x) h.1 hl]
    unfold State.takeIntoBank
    cases cp.trigger <;> rfl

end Sys2Proof.Machine
end

