-- ==== Sys2Proof/Laws/Steps.lean ====
section
/-! SUPPORT. How a property is carried through an answered request, and from `exec` to `step`. -/

namespace Sys2Proof.Machine

/-- What every command keeps, every step keeps, if it does not read the queue of waiting commands. -/
theorem step_keeps {P : State → Prop} (hq : ∀ s q, P s → P (s.setPending q))
    (hc : ∀ c s u, P s → exec c s = .next u → P u) {s u : State} (hs : P s)
    (h : step s = .next u) : P u := by
  unfold step at h
  split at h
  · injection h with h; subst h; exact hs
  · exact hc _ _ _ (hq _ _ hs) h

/-- A property survives a request if it survives the owner's answer and a reply made READY. -/
theorem State.serve_keeps {α : Type} {s : State} {p : Port} {k : Kind} {read : List Byte → Option α}
    {owner : State → α → Answer} {P : State → Prop} (hs : P s)
    (hr : ∀ u r, P u → P (u.makeReady p r))
    (ho : ∀ x f, (s.portOf p).request = some f → kindOf f.kind = some k →
      s.commonRefusal p k f = none → read f.payload = some x → P (owner s x).state) :
    P (s.serve p k read owner) := by
  rcases State.serve_cases (s := s) (p := p) (k := k) (read := read) (owner := owner) with
    h | ⟨f, hf, hk, ⟨st, h⟩ | ⟨x, hc, hx, h⟩⟩
  · rw [h]; exact hs
  · rw [h]; exact hr _ _ hs
  · rw [h]; exact hr _ _ (ho x f hf hk hc hx)

/-- A request that passes the common checks under a session found it OPEN (R161 check 2). -/
theorem State.commonRefusal_open {s : State} {p : Port} {k : Kind} {f : Frame}
    (h : s.commonRefusal p k f = none) (hk : k.needsSession = true) : s.sessionOpen p = true := by
  unfold State.commonRefusal at h
  cases ho : s.sessionOpen p with
  | true => rfl
  | false => simp [hk, ho] at h

/-- What a release of select leaves alone: everything but the ports and the session records (R146). -/
theorem State.releaseSelect_frame (s : State) (p : Port) (sdi : List Bool) (t : Nat) :
    s.releaseSelect p sdi t =
      { s with
        ports := (s.releaseSelect p sdi t).ports
        sessions := (s.releaseSelect p sdi t).sessions } := by
  unfold State.releaseSelect
  split
  · rfl
  · split
    · rfl
    · dsimp only
      unfold State.judgeFrame
      split
      · rfl
      · split <;> rfl
      · split
        · unfold State.takeFrame; split <;> rfl
        · rfl

/-- What the cancelling of a teardown leaves alone: everything but the Capture Bank (R94). -/
theorem State.teardownCapture_frame (s : State) (p : Port) (t : Nat) :
    s.teardownCapture p t = s.setCapture (s.teardownCapture p t).capture := by
  unfold State.teardownCapture
  dsimp only
  split
  · rw [State.cancel_frame]; rfl
  · rfl

/-! ### Properties that every command keeps -/

/-- What a property of states must survive to survive every command: the operations the commands are
made of, each on a state that has the property. -/
structure KeptByOperations (P : State → Prop) : Prop where
  port : ∀ s p h, P s → P (s.setPort p h)
  lease : ∀ s p t, P s → P (s.setSession p ((s.sessionOf p).restartLease t))
  opening : ∀ s p rq t, P s → s.sessionOpen p = false → rq.watermark ≤ 32 →
    P ((s.setSession p ((s.sessionOf p).opened rq t)).setResults p
      { s.resultsOf p with watermark := watermarkOf rq.watermark })
  teardown : ∀ s p t, P s → P (s.teardown p t)
  clearFlags : ∀ s p, P s → s.sessionOpen p = false → P (s.setSession p (s.sessionOf p).clearFlags)
  expired : ∀ s p, P s → s.sessionOpen p = false → P (s.setSession p (s.sessionOf p).setExpired)
  pace : ∀ s p pace, P s → s.sessionOpen p = true → s.paceOverload p pace = false →
    P (s.writePace p pace)
  claim : ∀ s p rq t, P s → s.sessionOpen p = true → rq.terms.valid = true →
    s.judgeClaim p rq = none → P (s.takeClaim p rq t)
  release : ∀ s p c, P s → P (s.setClaims (s.claims.set p c none))
  readNow : ∀ s p rq t, P s → s.sessionOpen p = true → s.judgeReadNow p rq = none →
    P ((s.queueDemand (rq.entry p s.freshDemandTag)).chooseIfIdle t)
  capture : ∀ s p rq t, P s → s.sessionOpen p = true → (∀ tag, (rq.entry p tag).Lawful) →
    s.judgeCapture p rq = none →
    P (((s.queueCapture (rq.entry p s.capture.nextTag)).takeHead t).chooseIfIdle t)
  cancel : ∀ s p tag t, P s → s.capture.holds p tag = true → P ((s.cancel p t).chooseIfIdle t)
  edge : ∀ s l e t, P s → P (s.takeEdge l e t)
  timeout : ∀ s cp t, P s → s.capture.bank = .armed cp t → P (s.timeoutCapture cp t)
  tick : ∀ s t, P s → s.sched.pacingTimer = some t → P (s.tick t)
  complete : ∀ s w, P s → s.conv.work = some w → P (s.complete w)
  fewerRecords : ∀ s p k, P s →
    P (s.setResults p { s.resultsOf p with records := (s.resultsOf p).records.drop k })
  resume : ∀ s p, P s → P (s.setResults p { s.resultsOf p with lapsed := false, lost := 0 })
  watermark : ∀ s p n, P s → 1 ≤ n → n ≤ 32 →
    P (s.setResults p { s.resultsOf p with watermark := n })
  fewerEvents : ∀ s p n, P s →
    P (s.setEvents p { events := (s.eventsOf p).events.drop n, lost := false })
  reset : ∀ s epochs, P s → P (s.resetPart epochs)
  rstn : ∀ s b, P s → P { s with rstnAsserted := b }
  queue : ∀ s q, P s → P (s.setPending q)

/-- A CLAIM payload that reads has valid terms (R15). -/
theorem readClaim_valid {l : List Byte} {rq : ClaimRequest} (h : readClaim l = some rq) :
    rq.terms.valid = true := by
  unfold readClaim at h
  split at h
  · simp only [bind, Option.bind_eq_some_iff, pure] at h
    obtain ⟨_, -, _, -, _, -, _, -, _, -, _, -, _, -, t, ht, h⟩ := h
    injection h with h; subst h
    unfold keepIf at ht
    split at ht
    · injection ht with ht; subst ht; assumption
    · cases ht
  · cases h

/-- A GET_RESULTS or SET_WATERMARK payload that reads names 1 to 32. -/
theorem readUpTo32_bounds {l : List Byte} {n : Nat} (h : readUpTo32 l = some n) : 1 ≤ n ∧ n ≤ 32 := by
  unfold readUpTo32 at h
  split at h
  · unfold boundedField at h
    split at h
    · injection h with h; subst h; assumption
    · cases h
  · cases h

/-- An OPEN payload that reads names a watermark of at most 32. -/
theorem readOpen_watermark {l : List Byte} {rq : OpenRequest} (h : readOpen l = some rq) :
    rq.watermark ≤ 32 := by
  unfold readOpen at h
  split at h
  · simp only [bind, Option.bind_eq_some_iff, pure] at h
    obtain ⟨_, -, _, -, w, hw, h⟩ := h
    injection h with h; subst h
    unfold boundedField at hw
    split at hw
    · injection hw with hw; subst hw; rename_i hb; exact hb.2
    · cases hw
  · cases h

/-- No two items of a CAPTURE payload that passes the check name one channel (R78). -/
theorem distinctChannels_nodup (l : List CaptureItem) (h : distinctChannels l = true) :
    (l.map (·.channel)).Nodup := by
  induction l with
  | nil => simp
  | cons a l ih =>
    simp only [distinctChannels, Bool.and_eq_true, List.all_eq_true, bne_iff_ne] at h
    simp only [List.map_cons, List.nodup_cons, List.mem_map, not_exists, not_and]
    exact ⟨fun x hx => h.1 x hx, ih h.2⟩

/-- What a field within bounds reads as. -/
theorem boundedField_some {lo hi n m : Nat} (h : boundedField lo hi n = some m) :
    m = n ∧ lo ≤ m ∧ m ≤ hi := by
  unfold boundedField at h
  split at h
  · injection h with h; subst h; exact ⟨rfl, by assumption⟩
  · cases h

/-- A CAPTURE payload that reads makes a lawful entry (Table 5-1, R78). -/
theorem readCapture_lawful {l : List Byte} {rq : CaptureRequest} (h : readCapture l = some rq)
    (p : Port) (tag : Tag) : (rq.entry p tag).Lawful := by
  unfold readCapture at h
  split at h
  · simp only [bind, Option.bind_eq_some_iff, pure, keepIf] at h
    obtain ⟨n, hn, _, -, tr, -, arm, ha, items, -, kept, hd, items', hl, h⟩ := h
    injection h with h; subst h
    split at hd
    · injection hd with hd; subst hd
      split at hl
      · rename_i hdist hlen
        injection hl with hl; subst hl
        simp only [beq_iff_eq] at hlen
        have hb := boundedField_some hn
        refine ⟨?_, ?_, distinctChannels_nodup _ hdist, ?_, ?_⟩
        · show 1 ≤ items.length; omega
        · show items.length ≤ 8; omega
        · intro ht
          have ht : tr = .immediate := ht
          subst ht
          injection ha with ha
          exact ha.symm
        · intro ht
          have ht : tr ≠ .immediate := ht
          cases tr with
          | immediate => exact absurd rfl ht
          | line a b =>
            simp only [armTimeoutField, Option.map_eq_some_iff] at ha
            obtain ⟨ms, hms, rfl⟩ := ha
            have := boundedField_some hms
            exact ⟨ms, rfl, this.2.1, this.2.2⟩
      · cases hl
    · cases hd
  · cases h

/-- A property kept by the operations is kept by every command. -/
theorem exec_keeps {P : State → Prop} (k : KeptByOperations P) (c : Instr) (s u : State) (hs : P s)
    (h : exec c s = .next u) : P u := by
  have mr : ∀ (u : State) p r, P u → P (u.makeReady p r) := fun u p r hu => k.port _ _ _ hu
  cases c <;> simp only [exec] at h
  case selectAssert p =>
    injection h with h; subst h
    unfold State.assertSelect
    split
    · exact hs
    · split
      · exact hs
      · exact k.port _ _ _ hs
  case selectRelease t p sdi =>
    injection h with h; subst h
    unfold State.releaseSelect
    split
    · exact hs
    · split
      · exact k.port _ _ _ hs
      · refine k.port _ _ _ ?_
        unfold State.judgeFrame
        split
        · exact k.port _ _ _ hs
        · split <;> exact k.port _ _ _ (k.port _ _ _ hs)
        · split
          · unfold State.takeFrame
            split
            · exact k.lease _ _ _ (k.port _ _ _ (k.port _ _ _ hs))
            · exact k.port _ _ _ (k.port _ _ _ hs)
          · exact k.port _ _ _ (k.port _ _ _ hs)
  case openSession t p =>
    injection h with h; subst h
    refine State.serve_keeps hs (fun u r hu => mr _ _ _ hu) ?_
    intro x f _ _ _ hr
    unfold ownOpen
    split
    · exact hs
    · rename_i ho; exact k.opening _ _ _ _ hs (by simpa using ho) (readOpen_watermark hr)
  case closeSession t p =>
    injection h with h; subst h
    exact State.serve_keeps hs (fun u r hu => mr _ _ _ hu) fun _ _ _ _ _ _ => k.teardown _ _ _ hs
  case linkReset t p =>
    injection h with h; subst h
    refine State.serve_keeps hs (fun u r hu => mr _ _ _ hu) ?_
    intro x f _ _ _ _
    simp only [ownLinkReset, State.teardownIfOpen]
    refine k.port _ _ _ ?_
    split
    · refine k.clearFlags _ _ (k.teardown _ _ _ hs) ?_
      simp [State.sessionOpen, State.sessionOf, Session.close]
    · rename_i ho; exact k.clearFlags _ _ hs (by simpa using ho)
  case status p =>
    injection h with h; subst h
    exact State.serve_keeps hs (fun u r hu => mr _ _ _ hu) fun _ _ _ _ _ _ => hs
  case setPace p =>
    injection h with h; subst h
    refine State.serve_keeps hs (fun u r hu => mr _ _ _ hu) ?_
    intro x f _ _ hc _
    unfold ownSetPace
    split
    · exact hs
    · rename_i ho
      exact k.pace _ _ _ hs (State.commonRefusal_open hc rfl) (by simpa using ho)
  case claim t p =>
    injection h with h; subst h
    refine State.serve_keeps hs (fun u r hu => mr _ _ _ hu) ?_
    intro x f _ _ hc hr
    unfold ownClaim
    split
    · exact hs
    · rename_i ho
      exact k.claim _ _ _ _ hs (State.commonRefusal_open hc rfl) (readClaim_valid hr) ho
  case release p =>
    injection h with h; subst h
    refine State.serve_keeps hs (fun u r hu => mr _ _ _ hu) ?_
    intro x f _ _ _ _
    unfold ownRelease
    split
    · exact hs
    · exact k.release _ _ _ hs
  case readNow t p =>
    injection h with h; subst h
    refine State.serve_keeps hs (fun u r hu => mr _ _ _ hu) ?_
    intro x f _ _ hc _
    unfold ownReadNow
    split
    · exact hs
    · rename_i ho; exact k.readNow _ _ _ _ hs (State.commonRefusal_open hc rfl) ho
  case capture t p =>
    injection h with h; subst h
    refine State.serve_keeps hs (fun u r hu => mr _ _ _ hu) ?_
    intro x f _ _ hc hr
    unfold ownCapture
    split
    · exact hs
    · rename_i ho
      exact k.capture _ _ _ _ hs (State.commonRefusal_open hc rfl) (readCapture_lawful hr p) ho
  case cancelCapture t p =>
    injection h with h; subst h
    refine State.serve_keeps hs (fun u r hu => mr _ _ _ hu) ?_
    intro x f _ _ _ _
    unfold ownCancelCapture
    split
    · rename_i ho; exact k.cancel _ _ _ _ hs ho
    · split <;> exact hs
  case getResults p =>
    injection h with h; subst h
    exact State.serve_keeps hs (fun u r hu => mr _ _ _ hu) fun _ _ _ _ _ _ => k.fewerRecords _ _ _ hs
  case resume p =>
    injection h with h; subst h
    refine State.serve_keeps hs (fun u r hu => mr _ _ _ hu) ?_
    intro x f _ _ _ _
    simp only [ownResume]
    split
    · exact k.resume _ _ hs
    · exact hs
  case readTable p =>
    injection h with h; subst h
    exact State.serve_keeps hs (fun u r hu => mr _ _ _ hu) fun _ _ _ _ _ _ => hs
  case setWatermark p =>
    injection h with h; subst h
    refine State.serve_keeps hs (fun u r hu => mr _ _ _ hu) ?_
    intro x f _ _ _ hr
    exact k.watermark _ _ _ hs (readUpTo32_bounds hr).1 (readUpTo32_bounds hr).2
  case getEvents p =>
    injection h with h; subst h
    exact State.serve_keeps hs (fun u r hu => mr _ _ _ hu) fun _ _ _ _ _ _ => k.fewerEvents _ _ _ hs
  case unknownKind p =>
    injection h with h; subst h
    unfold State.answerUnknown
    split
    · exact hs
    · split
      · exact hs
      · exact mr _ _ _ hs
  case powerOn => injection h with h; subst h; exact k.reset _ _ hs
  case rstn => injection h with h; subst h; exact k.rstn _ _ (k.reset _ _ hs)
  case pacingTick =>
    unfold execPacingTick at h
    split at h
    · injection h with h; subst h; exact hs
    · rename_i t ht; injection h with h; subst h; exact k.tick _ _ hs ht
  case conversionComplete =>
    unfold execConversionComplete at h
    split at h
    · injection h with h; subst h; exact hs
    · rename_i w hw; injection h with h; subst h; exact k.complete _ _ hs hw
  case triggerEdge t l e => injection h with h; subst h; exact k.edge _ _ _ _ hs
  case armTimeout =>
    unfold execArmTimeout at h
    split at h
    · injection h with h; subst h; exact hs
    · rename_i cp t hb; injection h with h; subst h; exact k.timeout _ _ _ hs hb
    · injection h with h; subst h; exact hs
  case leaseExpiry p =>
    unfold execLeaseExpiry at h
    split at h
    · injection h with h; subst h; exact hs
    · split at h
      · injection h with h; subst h
        refine k.expired _ _ (k.teardown _ _ _ hs) ?_
        simp [State.sessionOpen, State.sessionOf, Session.close]
      · injection h with h; subst h; exact hs
  case rstnRelease => injection h with h; subst h; exact k.rstn _ _ hs
  case repeatBadLength p =>
    injection h with h; subst h
    exact State.serve_keeps hs (fun u r hu => mr _ _ _ hu) fun _ _ _ _ _ _ => hs

/-- A property kept by the operations is kept by every step. -/
theorem step_keeps_of {P : State → Prop} (k : KeptByOperations P) {s u : State} (hs : P s)
    (h : step s = .next u) : P u :=
  step_keeps k.queue (exec_keeps k) hs h

end Sys2Proof.Machine
end

