-- ==== Sys2Proof/WellFormed.lean ====
section
/-! DEFINITION. Which queues of commands a world outside the part can produce: moments do not run
backwards, a port's select is asserted and released by turns, and so is RSTN. The operands of a single
command are typed, so no single command is ill formed. `exec` gives every command a meaning whether or
not its queue is well formed (log entry 4). -/

namespace Sys2Proof

/-- The moment a command carries, if it carries one. -/
def Instr.moment : Instr → Option Nat
  | .selectRelease t _ _ => some t
  | .openSession t _ => some t
  | .closeSession t _ => some t
  | .linkReset t _ => some t
  | .claim t _ => some t
  | .readNow t _ => some t
  | .capture t _ => some t
  | .cancelCapture t _ => some t
  | .triggerEdge t _ _ => some t
  | .selectAssert _ => none
  | .status _ => none
  | .setPace _ => none
  | .release _ => none
  | .getResults _ => none
  | .resume _ => none
  | .readTable _ => none
  | .setWatermark _ => none
  | .getEvents _ => none
  | .unknownKind _ => none
  | .powerOn => none
  | .rstn => none
  | .pacingTick => none
  | .conversionComplete => none
  | .armTimeout => none
  | .leaseExpiry _ => none
  | .rstnRelease => none
  | .repeatBadLength _ => none

/-- The moments the queue's commands carry never fall, from `now` on. -/
def momentsInOrder (now : Nat) : List Instr → Bool
  | [] => true
  | i :: rest =>
    match i.moment with
    | none => momentsInOrder now rest
    | some t => decide (now ≤ t) && momentsInOrder t rest

/-- The port's select is asserted only while released and released only while asserted (9.2). -/
def selectsAlternate (p : Port) (asserted : Bool) : List Instr → Bool
  | [] => true
  | .selectAssert q :: rest =>
    if q = p then !asserted && selectsAlternate p true rest else selectsAlternate p asserted rest
  | .selectRelease _ q _ :: rest =>
    if q = p then asserted && selectsAlternate p false rest else selectsAlternate p asserted rest
  | _ :: rest => selectsAlternate p asserted rest

/-- RSTN is asserted only while released and released only while asserted (R155). -/
def rstnAlternates (asserted : Bool) : List Instr → Bool
  | [] => true
  | .rstn :: rest => !asserted && rstnAlternates true rest
  | .rstnRelease :: rest => asserted && rstnAlternates false rest
  | _ :: rest => rstnAlternates asserted rest

/-- A queue the world outside can produce for a part whose inputs are all released. -/
def wellFormedQueue (q : List Instr) : Bool :=
  momentsInOrder 0 q && selectsAlternate .A false q && selectsAlternate .B false q &&
    selectsAlternate .C false q && rstnAlternates false q

end Sys2Proof
end

