-- ==== Sys2Proof/Tests/Slice0.lean ====
section
/-! SUPPORT. Tests of one command or one operation each, with results the manual states, and for every
statement with hypotheses a state and operands that meet them. The manual's place of each expected result
stands in the test's docstring. -/

namespace Sys2Proof.Tests

open Machine

/-! ### Small states -/

/-- A request frame with sequence byte 3; its CRC plays no part once it is executing. -/
def request (kind : Byte) (payload : List Byte) : Frame :=
  ⟨kind, 3, payload, 0⟩

/-- The state with a request executing on a port. -/
def ask (s : State) (p : Port) (kind : Byte) (payload : List Byte) : State :=
  s.setPort p { HostPort.reset with request := some (request kind payload) }

/-- An OPEN session of epoch 1, with a lease of 20 ms restarted at 5 ms. -/
def openWith (pace : Nat) : Session :=
  ⟨true, 1, some pace, some 20, some 25000000, false, false⟩

/-- Sessions A and B open, with paces of 100 and 50 µs; C CLOSED since power-on. -/
def opened : State :=
  { State.reset with sessions := ⟨openWith 100, openWith 50, .reset 0⟩ }

/-- All three sessions open, as in example 5.9. -/
def threeOpen : State :=
  { State.reset with sessions := ⟨openWith 100, openWith 50, openWith 200⟩ }

/-- The next state of an outcome. -/
def after (o : Host.Outcome State Fault Refusal) : State :=
  match o with
  | .next s => s
  | .fault _ => .reset
  | .refused _ => .reset

/-- The status code and payload of the reply READY on a port after a command. -/
def reply (o : Host.Outcome State Fault Refusal) (p : Port) : Option (Byte × List Byte) :=
  ((after o).portOf p).reply.map fun r => (r.status, r.payload)

/-- The terms of a STREAM claim without a window. -/
def term (r : Range) (res : Resolution) (h : Hold) (per : Period) (prio : Bool) : ClaimTerms :=
  ⟨r, res, h, per, prio, .stream, none⟩

/-- An ACTIVE claim. -/
def active (t : ClaimTerms) : Claim :=
  { pendingClaim t with state := .active }

/-- The bytes of a CLAIM without a window, delivery STREAM. -/
def claimBytes (c r res h per prio : Byte) : List Byte :=
  [c, r, res, h, per, prio, 0, 0, 0, 0, 0, 0, 0]

/-- The Claim Table of example 1.12 after step 3. -/
def tableStep3 : ClaimTable :=
  (ClaimTable.empty.set .A 2 (some (active (term .full .bits10 .hold .p2 false)))).set .A 7
    (some (active (term .full .bits12 .direct .p1 true)))

/-- The Claim Table of example 1.12 after step 6. -/
def tableStep6 : ClaimTable :=
  (tableStep3.set .B 2 (some (active (term .full .bits8 .direct .p1 false)))).set .B 9
    (some (active (term .full .bits12 .hold .p4 false)))

/-- The Claim Table of example 1.12 after step 10, and of example 2.10. -/
def tableStep10 : ClaimTable :=
  tableStep6.set .C 11 (some (active (term .full .bits12 .direct .p1 true)))

/-- A part with the claims of example 1.12 after step 10. -/
def claimed : State :=
  { threeOpen with claims := tableStep10 }

/-- A named level on an input from instant 0 on. -/
def level (c : Channel) (nanovolts : Int) : AnalogLevel :=
  ⟨some c, 0, nanovolts⟩

/-! ### Queues of commands -/

/-- Moments that run backwards are refused. -/
theorem test_wellFormed_moments :
    wellFormedQueue [.triggerEdge 5 .trg0 .rising, .triggerEdge 4 .trg0 .falling] = false := by decide

/-- A release of a select that is not asserted is refused, and so is a second assertion. -/
theorem test_wellFormed_selects :
    wellFormedQueue [.selectRelease 5 .A []] = false ∧
      wellFormedQueue [.selectAssert .B, .selectAssert .B] = false ∧
      wellFormedQueue [.selectRelease 5 .C []] = false := by decide

/-- A release of RSTN that is not asserted is refused, and so is a second assertion. -/
theorem test_wellFormed_rstn :
    wellFormedQueue [.rstnRelease] = false ∧ wellFormedQueue [.rstn, .rstn] = false := by decide

/-- A queue the world can produce is accepted. -/
theorem test_wellFormed_accepts :
    wellFormedQueue
        [.selectAssert .A, .selectRelease 5 .A [], .rstn, .rstnRelease, .triggerEdge 5 .trg1 .rising] =
      true := by decide

/-- No table word spells a command, so the state stays as it is. -/
theorem test_decode_none : decodeTableWord 8 1 = none ∧ State.reset.withFetchWord 8 1 = State.reset :=
  ⟨rfl, rfl⟩

/-! ### Selections and frames (chapter 9) -/

/-- After power-on the status byte shows RESET_SEEN alone, and no reply is shown (R139, R159). -/
theorem test_selectAssert_after_reset :
    ((after (exec (.selectAssert .A) .reset)).portOf .A).selection = some ⟨1, false⟩ := by decide

/-- Table 11-5, selection 2: EXPIRED alone is status byte 2. -/
theorem test_selectAssert_expired :
    ((after
        (exec (.selectAssert .A)
          (opened.setSession .A { Session.reset 5 with expired := true, resetSeen := false }))).portOf
      .A).selection = some ⟨2, false⟩ := by decide

/-- A frame released while a reply is READY is dropped (example 9.9, selection 2). -/
theorem test_selectRelease_dropped :
    (after
        (exec (.selectRelease 7 .B (request 0x40 [1]).bits)
          (opened.setPort .B
            { HostPort.reset with
              reply := some ⟨0x30, 7, 0, [0, 0]⟩
              selection := some ⟨192, true⟩ }))).portOf .B =
      { HostPort.reset with reply := some ⟨0x30, 7, 0, [0, 0]⟩, dropped := true } := by decide

/-- A frame cut short inside its third byte is answered FRAME_ERROR with its kind and sequence (R144). -/
theorem test_selectRelease_frame_error :
    ((after
        (exec (.selectRelease 7 .B ((request 0x40 [1]).bits.take 20))
          (opened.setPort .B { HostPort.reset with selection := some ⟨64, false⟩ }))).portOf .B).reply =
      some ⟨0x40, 3, 8, []⟩ := by decide

/-- The catalogued check value of the generator with an all-ones register: "123456789" gives AEE7H
(R145). -/
theorem test_crc_check_value :
    crc16 [0x31, 0x32, 0x33, 0x34, 0x35, 0x36, 0x37, 0x38, 0x39] = 0xAEE7#16 := by decide +kernel

/-- A kind byte outside Table 10-4 is answered UNKNOWN_KIND (R161). -/
theorem test_unknownKind :
    reply (exec (.unknownKind .A) (ask opened .A 0x50 [])) .A = some (4, []) := by decide

/-- A REPEAT with a length other than 0 is answered BAD_LENGTH (R161). -/
theorem test_repeatBadLength :
    reply (exec (.repeatBadLength .A) (ask opened .A 0x05 [0])) .A = some (5, []) := by decide

/-! ### Sessions (example 8.11) -/

/-- Step 1: OPEN at 2 ms with a lease of 20 ms: epoch 1, the timer runs out at 22 ms, family 316,
revision 1. -/
theorem test_open :
    reply (exec (.openSession 2000000 .A) (ask .reset .A 0x01 [0, 100, 0, 20, 0])) .A =
        some (0, [1, 1, 60, 1]) ∧
      (after (exec (.openSession 2000000 .A) (ask .reset .A 0x01 [0, 100, 0, 20, 0]))).sessionOf .A =
        ⟨true, 1, some 100, some 20, some 22000000, false, false⟩ := by decide

/-- A pace of 10 µs is BAD_FIELD even on an OPEN session; a good OPEN is ALREADY_OPEN there (R161,
step 12). -/
theorem test_open_refused :
    reply (exec (.openSession 2000000 .A) (ask opened .A 0x01 [0, 10, 0, 20, 0])) .A = some (6, []) ∧
      reply (exec (.openSession 2000000 .A) (ask opened .A 0x01 [0, 100, 0, 20, 0])) .A =
        some (3, []) := by decide

/-- CLOSE of a CLOSED session is NO_SESSION; of an OPEN one, OK and CLOSED with no flag (R136). -/
theorem test_close :
    reply (exec (.closeSession 7 .C) (ask opened .C 0x02 [])) .C = some (2, []) ∧
      (after (exec (.closeSession 7 .A) (ask opened .A 0x02 []))).sessionOf .A =
        ⟨false, 1, some 100, some 20, none, false, false⟩ := by decide

/-- Step 10: LINK_RESET closes the session and leaves both flags clear. -/
theorem test_linkReset :
    reply (exec (.linkReset 7 .C) (ask opened .C 0x03 [])) .C = some (0, []) ∧
      ((after (exec (.linkReset 7 .C) (ask opened .C 0x03 []))).sessionOf .C).resetSeen = false ∧
      ((after (exec (.linkReset 7 .A) (ask opened .A 0x03 []))).sessionOf .A).isOpen = false := by decide

/-- Step 5: the lease runs out; CLOSED, epoch kept, EXPIRED set, and A's claims are gone. -/
theorem test_leaseExpiry :
    (after (exec (.leaseExpiry .A) claimed)).sessionOf .A =
        ⟨false, 1, some 100, some 20, none, true, false⟩ ∧
      (after (exec (.leaseExpiry .A) claimed)).claims.holdsClaim .A = false := by decide

/-- Step 8: RSTN keeps the epoch and sets RESET_SEEN; power-on sets the epoch to 0. -/
theorem test_resets :
    (after (exec .rstn opened)).sessionOf .A = { Session.reset 0 with epoch := 1 } ∧
      (after (exec .powerOn opened)).sessionOf .A = .reset 0 := by decide

/-- A selection that begins while RSTN is asserted is void; after its release one is taken (R155). -/
theorem test_rstnRelease :
    ((after (exec (.selectAssert .A) (after (exec .rstn opened)))).portOf .A).selection = none ∧
      (after (exec .rstnRelease (after (exec .rstn opened)))).rstnAsserted = false := by decide

/-! ### Claims (example 1.12) -/

/-- Loads and reserves of Table 1-5 after steps 3, 6 and 10. -/
theorem test_load_and_reserve :
    tableStep3.load = 4800 ∧ tableStep3.reserve = 8100 ∧ tableStep6.load = 10200 ∧
      tableStep6.reserve = 14000 ∧ tableStep10.load = 16800 ∧ tableStep10.reserve = 30500 := by decide

/-- Step 2: the first CLAIM is answered OK with round 0, which begins at once. -/
theorem test_claim_first :
    reply (exec (.claim 0 .A) (ask opened .A 0x11 (claimBytes 2 2 10 1 2 0))) .A = some (0, [0, 0]) ∧
      (after (exec (.claim 0 .A) (ask opened .A 0x11 (claimBytes 2 2 10 1 2 0)))).sched.state =
        .running := by decide

/-- Steps 9 and 11: LOW on a FULL channel is CONFLICT, and a third priority channel PRIORITY_FULL. -/
theorem test_claim_refused :
    reply (exec (.claim 0 .C) (ask claimed .C 0x11 (claimBytes 2 1 12 1 8 0))) .C = some (9, []) ∧
      reply (exec (.claim 0 .A) (ask claimed .A 0x11 (claimBytes 4 2 8 1 1 1))) .A = some (11, []) := by
  decide

/-- Step 12: RELEASE of A's channel 2 raises the load to 17,300 and leaves the reserve. -/
theorem test_release :
    (after (exec (.release .A) (ask claimed .A 0x12 [2]))).claims.load = 17300 ∧
      (after (exec (.release .A) (ask claimed .A 0x12 [2]))).claims.reserve = 30500 ∧
      reply (exec (.release .A) (ask claimed .A 0x12 [9])) .A = some (12, []) := by decide

/-- Step 7: a pace of 10 µs is BAD_FIELD. A pace of 34 µs leaves a budget of 29,750 ns, below the
reserve of 30,500: OVERLOAD. One of 35 µs leaves 30,625: OK, with the interval (R12, R20). -/
theorem test_setPace :
    reply (exec (.setPace .B) (ask claimed .B 0x10 [0, 10])) .B = some (6, []) ∧
      reply (exec (.setPace .B) (ask claimed .B 0x10 [0, 34])) .B = some (10, []) ∧
      reply (exec (.setPace .B) (ask claimed .B 0x10 [0, 35])) .B = some (0, [0, 35]) := by decide

/-! ### Rounds (examples 2.10 and 2.11) -/

/-- The slot lists of rounds 20 and 21. -/
theorem test_slot_lists :
    (slotList tableStep10.snapshot 20).map (·.channel) = [7, 11, 2] ∧
      (slotList tableStep10.snapshot 21).map (·.channel) = [7, 11, 2, 7, 11, 9] := by decide

/-- The claims of example 2.11. -/
def lateTerms : ClaimTerms := term .full .bits12 .direct .p1 false

/-- The Claim Table of example 2.11. -/
def lateClaims : ClaimTable :=
  (((ClaimTable.empty.set .A 0 (some (active lateTerms))).set .A 1 (some (active lateTerms))).set .A 2
      (some (active lateTerms))).set .A 3 (some (active lateTerms))

/-- Example 2.11 at 20.0 µs, before the tick: slot 3 in flight, demand 4 of B waiting. -/
def lateState : State :=
  { opened with
    sessions := ⟨openWith 20, openWith 50, .reset 0⟩
    claims := lateClaims
    sched :=
      { state := .running
        plan := lateClaims.snapshot
        snapshotInterval := some 20
        nextRound := 41
        currentRound := some 40
        slots := slotList lateClaims.snapshot 40
        slotPosition := 4
        pacingTimer := some 20000
        ticksLost := 0
        startPending := false }
    conv := { work := some ⟨.plan 3, 3, .full, .bits12, .direct, 19800, 23100⟩, planMark := false }
    demand := { entries := [⟨4, .B, 5, .full, .bits12, .direct⟩], nextTag := 5 }
    analog := [level 3 1000000000] }

/-- At 20.0: the tick makes the round LATE and the timer runs out next at 40.0. -/
theorem test_pacingTick :
    (after (exec .pacingTick lateState)).sched =
      { lateState.sched with state := .late, pacingTimer := some 40000 } := by decide

/-- Example 2.11 at 23.1 µs, before the completion. -/
def lateEnd : State :=
  { lateState with sched := { lateState.sched with state := .late, pacingTimer := some 40000 } }

/-- At 23.1: slot 3 completes with code 1,638 at 1.0 V (R57); ROUND_SLIP of round 40 to A alone; round 41
starts and is paced from there; the plan mark is yes, so demand 4 is taken. -/
theorem test_conversionComplete_late :
    (after (exec .conversionComplete lateEnd)).eventsOf .A = ⟨[.roundSlip 40 0], false⟩ ∧
      (after (exec .conversionComplete lateEnd)).eventsOf .B = .reset ∧
      (after (exec .conversionComplete lateEnd)).resultsOf .A =
        { ResultQueue.reset with records := [.plan 3 1638 .bits12 40 3 0 false false] } ∧
      (after (exec .conversionComplete lateEnd)).sched.pacingTimer = some 43100 ∧
      (after (exec .conversionComplete lateEnd)).conv.work =
        some ⟨.demand 4 .B false, 5, .full, .bits12, .direct, 23100, 26400⟩ := by decide

/-- STATUS just out of power-on: OK, 88 bytes, Scheduler STOPPED (Table 10-11). -/
theorem test_status :
    (reply (exec (.status .A) (ask .reset .A 0x04 [])) .A).map (fun x => (x.1, x.2.length, x.2.head?)) =
      some (0, 88, some 0) := by decide

/-! ### The Converter (R57, R64, example 3.8) -/

/-- The worked voltages of R57. -/
theorem test_codes :
    codeOf .full .bits12 1000000000 = 1638 ∧ clipOf .full .bits12 1000000000 = false ∧
      codeOf .full .bits12 2500000000 = 4095 ∧ clipOf .full .bits12 2500000000 = true ∧
      codeOf .full .bits12 (-1) = 0 ∧ clipOf .full .bits12 (-1) = true ∧
      codeOf .bipolar .bits12 1250000000 = 2047 ∧ clipOf .bipolar .bits12 1250000000 = true ∧
      codeOf .bipolar .bits12 (-1250000000) = -2048 ∧
      clipOf .bipolar .bits12 (-1250000000) = false ∧
      clipOf .bipolar .bits12 (-1250000001) = true := by decide

/-- The worked reductions of R64. -/
theorem test_reductions :
    reduceCode 4095 .bits12 .bits10 = 1023 ∧ reduceCode 1638 .bits12 .bits8 = 102 ∧
      reduceCode 2047 .bits12 .bits10 = 511 ∧ reduceCode (-2048) .bits12 .bits8 = -128 ∧
      reduceCode (-1) .bits12 .bits8 = -1 ∧ reduceCode (-5) .bits12 .bits10 = -2 := by decide

/-- Example 3.8 at 5.4 µs: capture 1 holds channels 11 and 9, its first value is converting, and slot 1
is the offer of round 21. -/
def heldState : State :=
  { claimed with
    sched :=
      { state := .running
        plan := tableStep10.snapshot
        snapshotInterval := some 50
        nextRound := 22
        currentRound := some 21
        slots := slotList tableStep10.snapshot 21
        slotPosition := 1
        pacingTimer := some 50000
        ticksLost := 0
        startPending := false }
    conv := { work := some ⟨.capture 1 0, 11, .full, .bits12, .hold, 3300, 5400⟩, planMark := true }
    demand := { entries := [⟨4, .B, 11, .full, .bits12, .hold⟩, ⟨5, .A, 5, .full, .bits8, .direct⟩],
                nextTag := 6 }
    capture :=
      { list := [⟨1, .A, [⟨11, .full⟩, ⟨9, .full⟩], .bits12, .immediate, none⟩]
        bank :=
          .holding ⟨1, .A, [⟨11, .full⟩, ⟨9, .full⟩], .bits12, .immediate, none⟩ false 1000
            [⟨0, some 3300, false, none⟩, ⟨0, none, false, none⟩]
        extraEdges := 0
        nextTag := 2
        lastFinished := .const none } }

/-- At 5.4: slot 1 of channel 11 is skipped, C's gap count rises to 1, and slot 2 of channel 2 is taken,
ending at 6.9. -/
theorem test_conversionComplete_skip :
    (after (exec .conversionComplete heldState)).conv =
        { work := some ⟨.plan 2, 2, .full, .bits10, .hold, 5400, 6900⟩, planMark := false } ∧
      ((after (exec .conversionComplete heldState)).claimOf .C 11).map (·.gap) = some 1 ∧
      (after (exec .conversionComplete heldState)).sched.slotPosition = 3 := by decide

/-! ### Demands (example 4.7) -/

/-- Example 4.7 before step 2. -/
def demandState : State :=
  { claimed with
    conv := { work := some ⟨.capture 1 0, 3, .full, .bits12, .hold, 3300, 5400⟩, planMark := true }
    demand := { entries := [⟨254, .A, 3, .full, .bits12, .hold⟩], nextTag := 255 } }

/-- Step 2: QUEUED with tag 255, and the counter wraps to 0. -/
theorem test_readNow :
    reply (exec (.readNow 0 .A) (ask demandState .A 0x20 [5, 2, 8, 0])) .A = some (1, [255]) ∧
      (after (exec (.readNow 0 .A) (ask demandState .A 0x20 [5, 2, 8, 0]))).demand.nextTag = 0 := by
  decide

/-- Step 4: BIPOLAR on a FULL channel is CONFLICT. Step 3: a third entry of A is QUEUE_FULL. -/
theorem test_readNow_refused :
    reply (exec (.readNow 0 .B) (ask demandState .B 0x20 [2, 3, 12, 1])) .B = some (9, []) ∧
      reply
          (exec (.readNow 0 .A)
            (ask
              (demandState.setDemand
                ⟨[⟨254, .A, 3, .full, .bits12, .hold⟩, ⟨255, .A, 5, .full, .bits8, .direct⟩], 0⟩)
              .A 0x20 [6, 2, 8, 0]))
          .A =
        some (13, []) := by decide

/-! ### Captures (example 5.9) -/

/-- Capture 7 of example 5.9. -/
def capture7 : Capture :=
  ⟨7, .A, [⟨2, .full⟩, ⟨9, .full⟩, ⟨11, .full⟩], .bits12, .line .trg0 .rising, some 5⟩

/-- Capture 9 of example 5.9. -/
def capture9 : Capture :=
  ⟨9, .B, [⟨4, .low⟩], .bits10, .line .trg1 .falling, some 2⟩

/-- Before step 1: the tag counter stands at 7. -/
def captureStart : State :=
  { threeOpen with capture := { CaptureBank.reset with nextTag := 7 } }

/-- After step 5. -/
def armedState : State :=
  { threeOpen with
    capture :=
      { list := [capture7]
        bank := .armed capture7 5000000
        extraEdges := 0
        nextTag := 8
        lastFinished := .const none } }

/-- Step 1: QUEUED with tag 7; ARMED with a 5 ms timer. -/
theorem test_capture :
    reply (exec (.capture 0 .A) (ask captureStart .A 0x21 [3, 12, 1, 0, 5, 2, 2, 9, 2, 11, 2])) .A =
        some (1, [7]) ∧
      (after
          (exec (.capture 0 .A)
            (ask captureStart .A 0x21 [3, 12, 1, 0, 5, 2, 2, 9, 2, 11, 2]))).capture =
        armedState.capture := by decide

/-- The counter's value is given though a capture in the list carries it (log entry 21). -/
theorem test_capture_tag_comes_round :
    reply
        (exec (.capture 0 .B)
          (ask (armedState.setCapture { armedState.capture with nextTag := 7 }) .B 0x21
            [1, 10, 0, 0, 0, 5, 1]))
        .B =
      some (1, [7]) := by decide

/-- Step 3: a second CAPTURE of one session is CAPTURE_PENDING; a channel named twice is BAD_FIELD, and a
payload too short for its channel count BAD_LENGTH (R78, R162). -/
theorem test_capture_refused :
    reply (exec (.capture 0 .A) (ask armedState .A 0x21 [1, 10, 0, 0, 0, 5, 1])) .A = some (14, []) ∧
      reply (exec (.capture 0 .B) (ask armedState .B 0x21 [2, 10, 0, 0, 0, 5, 1, 5, 1])) .B =
        some (6, []) ∧
      reply (exec (.capture 0 .B) (ask armedState .B 0x21 [2, 10, 0, 0, 0, 5, 1])) .B =
        some (5, []) := by decide

/-- Step 6: the edge samples capture 7, and channel 2 converts for 2,100 ns. Step 5: a falling edge is
ignored. -/
theorem test_triggerEdge :
    (after (exec (.triggerEdge 9000 .trg0 .rising) armedState)).conv.work =
        some ⟨.capture 7 0, 2, .full, .bits12, .hold, 9000, 11100⟩ ∧
      (after (exec (.triggerEdge 9000 .trg0 .falling) armedState)).capture = armedState.capture := by
  decide

/-- Step 9: NOT_FOUND for another session's tag. Step 12: TOO_LATE for the last finished tag. -/
theorem test_cancelCapture_refused :
    reply (exec (.cancelCapture 0 .C) (ask armedState .C 0x22 [7])) .C = some (12, []) ∧
      reply
          (exec (.cancelCapture 0 .A)
            (ask (threeOpen.setCapture { CaptureBank.reset with lastFinished := ⟨some 7, none, none⟩ })
              .A 0x22 [7]))
          .A =
        some (15, []) := by decide

/-- An ARMED capture is cancelled: the list is empty and the bank FREE (R91). -/
theorem test_cancelCapture :
    reply (exec (.cancelCapture 0 .A) (ask armedState .A 0x22 [7])) .A = some (0, []) ∧
      (after (exec (.cancelCapture 0 .A) (ask armedState .A 0x22 [7]))).capture.bank = .free ∧
      (after (exec (.cancelCapture 0 .A) (ask armedState .A 0x22 [7]))).capture.list = [] := by decide

/-- Example 5.9 after step 15. -/
def armedState9 : State :=
  { threeOpen with
    capture :=
      { list := [capture9]
        bank := .armed capture9 2007800
        extraEdges := 0
        nextTag := 10
        lastFinished := ⟨some 7, none, none⟩ } }

/-- Step 16: the arm timer runs out: CAPTURE_TIMEOUT of tag 9 to B, list empty, FREE, last finished 7 and
9. -/
theorem test_armTimeout :
    (after (exec .armTimeout armedState9)).eventsOf .B = ⟨[.captureTimeout 9], false⟩ ∧
      (after (exec .armTimeout armedState9)).capture =
        { CaptureBank.reset with nextTag := 10, lastFinished := ⟨some 7, some 9, none⟩ } := by decide

/-! ### The Result Store (example 6.8 and the example of 10.7) -/

/-- A PLAN record. -/
def planRecord : Record := .plan 2 175 .bits8 101 2 0 false false

/-- A part whose port B asks GET_RESULTS for 32 of the given records. -/
def drain (records : List Record) : State :=
  ask (opened.setResults .B { ResultQueue.reset with records := records }) .B 0x30 [32]

/-- Step 5: 26 of 32 PLAN records, 6 left, in 236 bytes. -/
theorem test_getResults :
    (reply (exec (.getResults .B) (drain (List.replicate 32 planRecord))) .B).map
        (fun x => (x.1, x.2.length, x.2.take 2)) =
      some (0, 236, [26, 6]) := by decide +kernel

/-- The example of 10.7: 20 PLAN records, a CAPTURE record of 8 values and 2 PLAN records, 239 bytes. -/
theorem test_getResults_sizes :
    (reply
          (exec (.getResults .B)
            (drain
              (List.replicate 20 planRecord ++
                .capture 7 .immediate 57 0 (List.replicate 8 ⟨2, 5, false, false⟩) ::
                  List.replicate 11 planRecord)))
          .B).map
        (fun x => (x.1, x.2.length, x.2.take 2)) =
      some (0, 239, [23, 9]) := by decide +kernel

/-- Step 10: RESUME answers the lost count of 3 and ends LAPSED. -/
theorem test_resume :
    reply
          (exec (.resume .B) (ask (opened.setResults .B ⟨[], true, 3, 16⟩) .B 0x31 [])) .B =
        some (0, [0, 3]) ∧
      (after
          (exec (.resume .B) (ask (opened.setResults .B ⟨[], true, 3, 16⟩) .B 0x31 []))).resultsOf .B =
        .reset := by decide

/-- READ_TABLE of channel 3 after reset: not VALID, 0, 8 bits, round 0 (Tables 6-2 and 10-12). -/
theorem test_readTable :
    reply (exec (.readTable .A) (ask opened .A 0x32 [0, 8])) .A = some (0, [3, 0, 0, 0, 8, 0, 0]) := by
  decide

/-- A watermark of 0 is BAD_FIELD in SET_WATERMARK; 32 is taken (Table 10-7). -/
theorem test_setWatermark :
    reply (exec (.setWatermark .A) (ask opened .A 0x33 [0])) .A = some (6, []) ∧
      ((after (exec (.setWatermark .A) (ask opened .A 0x33 [32]))).resultsOf .A).watermark = 32 := by
  decide

/-! ### Windows and events (examples 7.6 and 7.7) -/

/-- Round 25 of example 7.6: the third ABOVE in a row confirms; its slot 3 starts a BELOW candidate. -/
theorem test_window_confirms :
    watchStep 3 .inside (some ⟨.above, 2⟩) (classify ⟨some 1000, some 3000, 3⟩ 3400) =
        ⟨.above, none, true⟩ ∧
      watchStep 3 .above none (classify ⟨some 1000, some 3000, 3⟩ 900) =
        ⟨.above, some ⟨.below, 1⟩, false⟩ ∧
      watchStep 3 .unknown none (classify ⟨some 1000, some 3000, 3⟩ 2000) =
        ⟨.inside, none, false⟩ := by decide

/-- Step 2 of example 7.7: an event to a full queue removes the oldest and sets the mark. -/
theorem test_event_queue_full :
    (EventQueue.mk ((List.range 8).map fun n => .captureTimeout (BitVec.ofNat 8 n)) false).append
        (.captureTimeout 8) =
      EventQueue.mk ((List.range 8).map fun n => .captureTimeout (BitVec.ofNat 8 (n + 1))) true := by
  decide

/-- Step 3 of example 7.7: GET_EVENTS of 3 from 8 events with the mark set: 3 returned, 5 left, mark set;
the mark is clear afterwards. -/
theorem test_getEvents :
    (reply
          (exec (.getEvents .B)
            (ask (opened.setEvents .B ⟨List.replicate 8 (.captureTimeout 1), true⟩) .B 0x40 [3]))
          .B).map
        (fun x => (x.1, x.2.length, x.2.take 3)) =
      some (0, 27, [3, 5, 1]) ∧
      ((after
          (exec (.getEvents .B)
            (ask (opened.setEvents .B ⟨List.replicate 8 (.captureTimeout 1), true⟩) .B 0x40
              [3]))).eventsOf .B).lost = false := by decide

/-! ### Witnesses: states and operands that meet the hypotheses of each statement -/

/-- What holds of A, B and C holds of every port. -/
theorem every_port {P : Port → Prop} (a : P .A) (b : P .B) (c : P .C) : ∀ p, P p
  | .A => a
  | .B => b
  | .C => c

/-- A queue with a command in front, and an empty one. -/
theorem test_witness_StepRunsFrontCommand :
    ({ State.reset with pending := [.powerOn] } : State).pending = .powerOn :: [] ∧
      State.reset.pending = [] := ⟨rfl, rfl⟩

/-- The ends of the code spaces, inside and one outside (R1). -/
theorem test_witness_CodeSpaceOfRanges :
    Range.low ≠ .bipolar ∧ inCodeSpace .low .bits8 0 = true ∧ inCodeSpace .low .bits8 255 = true ∧
      inCodeSpace .full .bits12 4096 = false ∧ inCodeSpace .full .bits12 (-1) = false ∧
      inCodeSpace .bipolar .bits12 (-2048) = true ∧ inCodeSpace .bipolar .bits12 2048 = false := by
  decide

/-- A channel with two claims, and a free one. -/
theorem test_witness_ProfileMergesTheClaims :
    tableStep10.profile 2 = some ⟨.full, .bits10, .hold, .p1, false⟩ ∧
      tableStep10.get .B 2 = some (active (term .full .bits8 .direct .p1 false)) ∧
      tableStep10.profile 3 = none := by decide

/-- Removing C's claim of channel 11; and a claimed channel and a free one. -/
theorem test_witness_ReserveBoundsTheLoad :
    (∀ p c, tableStep6.get p c = tableStep10.get p c ∨ tableStep6.get p c = none) ∧
      tableStep10.get .B 2 = some (active (term .full .bits8 .direct .p1 false)) ∧
      ∀ p, tableStep10.get p 3 = none :=
  ⟨every_port (by decide) (by decide) (by decide), by decide,
    every_port (by decide) (by decide) (by decide)⟩

/-- A CLAIM of C on the free channel 5. -/
def freeClaim : ClaimRequest := ⟨5, term .full .bits8 .hold .p16 false⟩

/-- The part that asks it. -/
def claimAsked : State := ask claimed .C 0x11 (claimBytes 5 2 8 1 16 0)

theorem test_witness_ClaimTakenIntoTheTable :
    claimAsked.Asks .C (request 0x11 (claimBytes 5 2 8 1 16 0)) .claim ∧
      readClaim (claimBytes 5 2 8 1 16 0) = some freeClaim ∧ claimAsked.Admits .C freeClaim ∧
      claimAsked.claims.isEmpty = false := by
  refine ⟨⟨rfl, rfl, fun _ => rfl, rfl⟩, by decide, ⟨?_, by decide, 50, by decide⟩, by decide⟩
  intro q cl _ h
  have free : claimAsked.claimOf q freeClaim.channel = none := by cases q <;> decide
  rw [free] at h
  cases h

/-- The first CLAIM of example 1.12. -/
def firstClaim : ClaimRequest := ⟨2, term .full .bits10 .hold .p2 false⟩

/-- The parts that ask it: at rest, with the Converter BUSY, and in DONE with an empty table. -/
def firstAsked (sched : Scheduler) (work : Option Work) : State :=
  { ask opened .A 0x11 (claimBytes 2 2 10 1 2 0) with sched := sched, conv := ⟨work, false⟩ }

/-- A demand in flight. -/
def demandWork : Work := ⟨.demand 4 .B false, 5, .full, .bits12, .direct, 100, 3400⟩

/-- A Scheduler in DONE. -/
def doneSched : Scheduler :=
  { Scheduler.reset with state := .done, snapshotInterval := some 50, pacingTimer := some 50000 }

theorem firstAsked_admits (sched : Scheduler) (work : Option Work) :
    (firstAsked sched work).Admits .A firstClaim := by
  refine ⟨?_, ?_, 100, rfl, ?_⟩
  · intro q cl _ h
    have free : opened.claimOf q firstClaim.channel = none := by cases q <;> decide
    rw [show (firstAsked sched work).claimOf q firstClaim.channel = none from free] at h
    cases h
  · exact show (opened.claims.set .A 2 (some (pendingClaim firstClaim.terms))).priorityChannels ≤ 2 by
      decide
  · exact show (opened.claims.set .A 2 (some (pendingClaim firstClaim.terms))).reserve ≤ 100 * 875 by
      decide

theorem test_witness_FirstClaimStartsARound :
    (∀ sched work,
        (firstAsked sched work).Asks .A (request 0x11 (claimBytes 2 2 10 1 2 0)) .claim ∧
          (firstAsked sched work).Admits .A firstClaim ∧
          (firstAsked sched work).claims.isEmpty = true) ∧
      readClaim (claimBytes 2 2 10 1 2 0) = some firstClaim ∧
      ((firstAsked .reset none).sched.state = .stopped ∧
        (firstAsked .reset none).sched.startPending = false ∧
        (firstAsked .reset none).conv.work = none ∧
        (firstAsked .reset none).interstitialEligible = false ∧
        (firstAsked .reset none).isHeld 2 = false ∧ 0 % periodRounds .p2 = 2 % periodRounds .p2) ∧
      (firstAsked .reset none).SchedulerLawful ∧
      (firstAsked .reset (some demandWork)).conv.work ≠ none ∧
      (firstAsked doneSched none).sched.state ≠ .stopped := by
  refine ⟨fun sched work => ⟨⟨rfl, rfl, fun _ => rfl, rfl⟩, firstAsked_admits sched work, ?_⟩,
    by decide, by decide, ?_, by decide, by decide⟩
  · exact show opened.claims.isEmpty = true by decide
  · refine ⟨by decide, ?_, fun _ => ⟨by decide, by decide, by decide, by decide⟩, by decide, by decide,
      by decide⟩
    rintro ⟨w, n, h, _⟩
    cases h

/-- Three CLAIMs, one failing each check of R17. -/
theorem test_witness_ClaimRefusedInOrder :
    readClaim (claimBytes 2 1 12 1 8 0) = some ⟨2, term .low .bits12 .hold .p8 false⟩ ∧
      ¬State.SameRange (ask claimed .C 0x11 (claimBytes 2 1 12 1 8 0)) .C
          ⟨2, term .low .bits12 .hold .p8 false⟩ ∧
      readClaim (claimBytes 4 2 8 1 1 1) = some ⟨4, term .full .bits8 .hold .p1 true⟩ ∧
      State.SameRange claimed .A ⟨4, term .full .bits8 .hold .p1 true⟩ ∧
      2 < (claimed.candidateTable .A ⟨4, term .full .bits8 .hold .p1 true⟩).priorityChannels ∧
      State.SameRange claimed .C ⟨4, term .full .bits8 .hold .p1 false⟩ ∧
      (claimed.candidateTable .C ⟨4, term .full .bits8 .hold .p1 false⟩).priorityChannels ≤ 2 ∧
      intervalOf ⟨openWith 100, openWith 20, openWith 200⟩
          (claimed.candidateTable .C ⟨4, term .full .bits8 .hold .p1 false⟩) =
        some 20 ∧
      20 * 875 < (claimed.candidateTable .C ⟨4, term .full .bits8 .hold .p1 false⟩).reserve := by
  have free : ∀ p q cl x, claimed.claimOf q 4 = some cl → q ≠ p → cl.terms.range = x := by
    intro p q cl x h _
    have empty : claimed.claimOf q 4 = none := by cases q <;> decide
    rw [empty] at h
    cases h
  refine ⟨by decide, ?_, by decide, fun q cl n h => free .A q cl _ h n, by decide,
    fun q cl n h => free .C q cl _ h n, by decide, by decide, by decide⟩
  intro same
  exact absurd
    (same .A (active (term .full .bits10 .hold .p2 false)) (by decide) (by decide)) (by decide)

/-- A claim of A's on channel 2, and none on channel 9. -/
theorem test_witness_ReleaseRemovesTheClaim :
    (ask claimed .A 0x12 [2]).Asks .A (request 0x12 [2]) .release ∧ readChannel [2] = some 2 ∧
      (ask claimed .A 0x12 [2]).claimOf .A 2 ≠ none ∧
      (ask claimed .A 0x12 [9]).claimOf .A 9 = none :=
  ⟨⟨rfl, rfl, fun _ => rfl, rfl⟩, by decide, by decide, by decide⟩

/-- A session without claims, and for one with claims a pace at each side of each boundary: the budget of
35 µs holds the reserve, that of 34 µs does not, and 50 µs is the interval itself. -/
theorem test_witness_SetPaceByCase :
    (ask claimed .B 0x10 [0, 35]).Asks .B (request 0x10 [0, 35]) .setPace ∧
      readPace [0, 35] = some 35 ∧ (ask opened .B 0x10 [0, 35]).claims.holdsClaim .B = false ∧
      (ask claimed .B 0x10 [0, 35]).claims.holdsClaim .B = true ∧
      (ask claimed .B 0x10 [0, 35]).effectiveInterval = some 50 ∧
      (ask claimed .B 0x10 [0, 35]).claims.reserve ≤ 35 * 875 ∧
      34 * 875 < (ask claimed .B 0x10 [0, 35]).claims.reserve ∧ readPace [0, 50] = some 50 ∧
      (claimed.sessions.get .B).isOpen = true ∧ (claimed.sessions.get .B).pace = some 50 ∧
      ∀ p, ClaimTable.empty.holdsClaim p = false :=
  ⟨⟨rfl, rfl, fun _ => rfl, rfl⟩, by decide, by decide, by decide, by decide, by decide, by decide,
    by decide, by decide, by decide, every_port (by decide) (by decide) (by decide)⟩

/-- A claim with a window and a candidate at one below its confirm count, and the greatest gap count. -/
def watched : Claim :=
  { terms := { term .full .bits12 .direct .p1 true with window := some ⟨some 1000, some 3000, 3⟩ }
    state := .active
    gap := 15
    windowState := .inside
    candidate := some ⟨.above, 2⟩ }

/-- A part in the middle of a round, with something in every block and a completion waiting. -/
def live : State :=
  { heldState with
    claims := tableStep10.set .A 7 (some watched)
    results := ⟨⟨[planRecord], true, 65535, 32⟩, .reset, .reset⟩
    events := ⟨⟨[.captureTimeout 1], true⟩, .reset, .reset⟩
    ports :=
      ⟨{ HostPort.reset with
          request := some (request 0x40 [1])
          memory := some (request 0x40 [1]).remembered },
        { HostPort.reset with
          lastReply := some ⟨0x30, 7, 0, [0, 0]⟩
          memory := some ⟨0x30, 7, 77⟩ },
        .reset⟩
    pending := [.conversionComplete] }

/-- Every cell of `live`'s Claim Table is empty or holds one of five lawful claims of range FULL. -/
theorem live_cells (p : Port) (c : Channel) (cl : Claim) (h : live.claims.get p c = some cl) :
    cl.Lawful ∧ cl.terms.range = .full := by
  have cells :
      ∀ q (d : Channel),
        live.claims.get q d ∈
          none :: some watched ::
            [term .full .bits10 .hold .p2 false, term .full .bits8 .direct .p1 false,
                term .full .bits12 .hold .p4 false, term .full .bits12 .direct .p1 true].map
              fun t => some (active t) :=
    every_port (by decide) (by decide) (by decide)
  have cell := cells p c
  rw [h] at cell
  simp only [List.map_cons, List.map_nil, List.mem_cons, reduceCtorEq, Option.some.injEq,
    List.not_mem_nil, or_false, false_or] at cell
  rcases cell with rfl | rfl | rfl | rfl | rfl
  · refine ⟨⟨by decide, by decide, ?_, ?_⟩, rfl⟩
    · intro n
      cases n
    · intro k hk
      cases hk
      exact ⟨_, rfl, by decide, by decide⟩
  all_goals exact ⟨⟨by decide, by decide, fun _ => ⟨rfl, rfl⟩, fun k hk => by cases hk⟩, rfl⟩

/-- What a plan entry must be to serve a claim, cell by cell. -/
def served (s : State) (p : Port) (c : Channel) : Bool :=
  (s.claimOf p c).all fun cl =>
    (s.sched.plan.get c).any fun e =>
      decide
        (e.profile.range = cl.terms.range ∧
          resolutionBits cl.terms.resolution ≤ resolutionBits e.profile.resolution ∧
          periodRounds e.profile.period ∣ periodRounds cl.terms.period ∧
          (cl.terms.priority = true → e.profile.priority = true))

/-- A plan that serves every cell, has the slots' profiles and that of the plan slot in flight. -/
theorem planServes_of (s : State) (cells : ∀ p c, served s p c = true)
    (slots : ∀ sl ∈ s.sched.slots,
      (s.sched.plan.get sl.channel).map (·.profile) = some sl.profile)
    (flight : ∀ w n, s.conv.work = some w → w.kind = .plan n →
      ∃ e, s.sched.plan.get w.channel = some e ∧ e.profile.range = w.range ∧
        e.profile.resolution = w.resolution ∧ e.profile.hold = w.hold) :
    s.PlanServes := by
  refine ⟨fun p c cl h _ => ?_, fun sl h => ?_, flight⟩
  · have cell := cells p c
    simp only [served, h, Option.all_some, Option.any_eq_true, decide_eq_true_eq] at cell
    exact cell
  · simpa only [Option.map_eq_some_iff] using slots sl h

/-- The premises of SchedulerLawful in example 2.11 at its tick: a plan slot in flight, whose value A's claim
is to receive. -/
def lateTick : State := { lateState with pending := [.pacingTick] }

theorem lateTick_cells (p : Port) (c : Channel) (cl : Claim) (h : lateTick.claims.get p c = some cl) :
    cl = active lateTerms := by
  have cells : ∀ q (d : Channel), lateTick.claims.get q d ∈ [none, some (active lateTerms)] :=
    every_port (by decide) (by decide) (by decide)
  have cell := cells p c
  rw [h] at cell
  simpa using cell

theorem test_witness_SchedulerLawful_in_flight :
    lateTick.SchedulerLawful ∧ lateTick.IdleAtRest ∧ lateTick.BudgetKept ∧ lateTick.RoundsPaced ∧
      lateTick.claims.Lawful ∧ lateTick.PlanServes ∧
      ∃ t w, step lateTick = .next t ∧ t.conv.work = some w ∧ w.kind = .plan 3 ∧
        t.receiver .A w = some (active lateTerms) := by
  refine ⟨⟨fun _ => rfl, fun _ => by decide, ?_, fun _ => rfl, by decide, ?_⟩, (fun h => by cases h),
    ⟨?_, ?_, fun _ => by decide⟩, fun _ => ⟨rfl, rfl⟩, ⟨?_, ?_, by decide⟩,
    planServes_of _ (every_port (by decide) (by decide) (by decide)) (by decide) ?_,
    _, _, rfl, rfl, rfl, by decide⟩
  · intro h
    cases h
  · intro h
    cases h
  · exact every_port (fun _ _ => rfl) (fun _ _ => rfl) (by decide)
  · exact every_port (fun _ => rfl) (fun _ => rfl) (by decide)
  · intro p c cl h
    rw [lateTick_cells p c cl h]
    exact ⟨by decide, by decide, fun _ => ⟨rfl, rfl⟩, fun k hk => by cases hk⟩
  · intro p q c x y hx hy
    rw [lateTick_cells p c x hx, lateTick_cells q c y hy]
  · intro w n h k
    cases h
    exact ⟨_, rfl, rfl, rfl, rfl⟩

/-- The premises of the invariants that concern claims, rounds, work and demands, and a step. -/
theorem test_witness_invariants_of_the_schedule :
    live.BudgetKept ∧ live.claims.Lawful ∧ live.SchedulerLawful ∧ live.IdleAtRest ∧ live.RoundsPaced ∧
      live.PlanServes ∧ live.WorkTimed ∧ live.DemandsLimited ∧ live.DemandTagsDistinct ∧
      ∃ t, step live = .next t := by
  refine ⟨⟨?_, ?_, fun _ => by decide⟩, ⟨?_, ?_, by decide⟩, ⟨fun _ => rfl, ?_, ?_, fun _ => rfl,
    by decide, ?_⟩, (fun h => by cases h), fun _ => ⟨rfl, rfl⟩,
    planServes_of _ (every_port (by decide) (by decide) (by decide)) (by decide)
      (fun w n h k => by cases h; cases k),
    ?_, ⟨by decide, every_port (by decide) (by decide) (by decide), by decide⟩,
    ⟨by decide, by decide⟩, _, rfl⟩
  · exact every_port (fun _ _ => rfl) (fun _ _ => rfl) (fun _ _ => rfl)
  · exact every_port (fun _ => rfl) (fun _ => rfl) (fun _ => rfl)
  · exact fun p c cl h => (live_cells p c cl h).1
  · exact fun p q c x y hx hy => (live_cells p c x hx).2.trans (live_cells q c y hy).2.symm
  · rintro ⟨w, n, h, k⟩
    cases h
    cases k
  · intro h
    cases h
  · intro h
    cases h
  · intro w h
    cases h
    exact ⟨rfl, fun _ => rfl⟩

/-- The bank of `live` is served: its first value is converting, and its second not taken. -/
theorem live_served : live.BankServed := by
  have lawful : Capture.Lawful ⟨1, .A, [⟨11, .full⟩, ⟨9, .full⟩], .bits12, .immediate, none⟩ :=
    ⟨by decide, by decide, by decide, fun _ => rfl, fun h => absurd rfl h⟩
  refine ⟨by decide, ?_, ?_, ?_⟩
  · intro cp h
    rcases List.mem_singleton.mp h with rfl
    exact lawful
  · intro w tag pos h k
    cases h
    cases k
    exact ⟨_, _, _, _, _, _, rfl, rfl, rfl, rfl, rfl, rfl, rfl, rfl, rfl⟩
  · intro cp cancelled sampled values h
    cases h
    refine ⟨lawful, (fun c => by cases c), by decide, fun _ => ⟨⟨_, List.mem_cons_self .., rfl⟩, ?_⟩⟩
    intro pos v hv taken _
    match pos, hv with
    | 0, _ => exact ⟨_, rfl, rfl⟩
    | 1, hv => cases hv; exact absurd rfl taken

/-- The premises of the invariants that concern captures, queues, sessions and ports, and a step. -/
theorem test_witness_invariants_of_the_sessions :
    live.CapturesLawful ∧ live.capture.bank.DroopJudged ∧ live.BankServed ∧ live.RecordsFit ∧
      live.ResultsBounded ∧ live.EventsBounded ∧
      live.ClosedHoldNothing ∧ live.SessionsLawful ∧ live.MemoriesAnswered ∧
      ∃ t, step live = .next t := by
  have captures : live.CapturesLawful := ⟨by decide, by decide, by decide, rfl, fun _ => rfl⟩
  refine ⟨captures, ?_, live_served, every_port (by decide) (by decide) (by decide),
    every_port ?_ ?_ ?_, every_port ?_ ?_ ?_, ⟨captures, ?_, ?_⟩,
    every_port ?_ ?_ ?_, ⟨every_port (fun _ => rfl) (fun _ => rfl) (fun _ => rfl),
      every_port ?_ ?_ ?_⟩, _, rfl⟩
  · intro v hv
    rcases List.mem_cons.mp hv with rfl | hv
    · decide
    · rcases List.mem_singleton.mp hv with rfl
      rfl
  · exact ⟨by decide, by decide, by decide, by decide, by decide⟩
  · exact ⟨by decide, by decide, by decide, by decide, by decide⟩
  · exact ⟨by decide, by decide, by decide, by decide, by decide⟩
  · exact ⟨by decide, by decide⟩
  · exact ⟨by decide, by decide⟩
  · exact ⟨by decide, by decide⟩
  · intro w tag p h k
    cases h
    cases k
  · exact every_port (fun h => by cases h) (fun h => by cases h) (fun h => by cases h)
  · exact ⟨fun _ => by decide, by decide, by decide⟩
  · exact ⟨fun _ => by decide, by decide, by decide⟩
  · exact ⟨fun _ => by decide, by decide, by decide⟩
  · intro m h
    cases h
    rfl
  · intro m h
    cases h
    exact ⟨_, rfl, rfl, by decide⟩
  · intro m h
    cases h

/-- Channel 2 is due in round 20 under period 2 and not in round 21, and A's claim on it is due where its
profile is. -/
theorem test_witness_DueRounds :
    0 < 1 ∧ 1 < periodRounds .p2 ∧ dueInRound .p2 2 20 = true ∧
      tableStep10.get .A 2 = some (active (term .full .bits10 .hold .p2 false)) ∧
      tableStep10.profile 2 = some ⟨.full, .bits10, .hold, .p1, false⟩ ∧
      (active (term .full .bits10 .hold .p2 false)).due 2 20 = true ∧
      lateState.sched.currentRound = some 40 := by decide

/-- Round 21 of example 2.10 has six slots, the last of index 5; a plan of priority channels alone has no
due normal channel. -/
theorem test_witness_SlotListOrder :
    planDueNormal tableStep10.snapshot 21 ≠ [] ∧
      5 < (planDueNormal tableStep10.snapshot 21).length *
        ((planPriority tableStep10.snapshot).length + 1) ∧
      ((slotList tableStep10.snapshot 21)[5]?).map (·.channel) = some 9 ∧
      planDueNormal (ClaimTable.empty.set .A 7 (some watched)).snapshot 21 = [] := by decide

/-- The three states of a Scheduler with a running timer. -/
theorem test_witness_TickByState :
    lateState.sched.pacingTimer = some 20000 ∧ lateState.sched.snapshotInterval = some 20 ∧
      lateState.sched.state = .running ∧ lateEnd.sched.pacingTimer = some 40000 ∧
      lateEnd.sched.snapshotInterval = some 20 ∧ lateEnd.sched.state = .late ∧
      doneSched.pacingTimer = some 50000 ∧ doneSched.snapshotInterval = some 50 ∧
      doneSched.state = .done := by decide

/-- A boundary whose round has slots, and one whose round has none: channel 1 of period 16 in round 0. -/
theorem test_witness_BoundaryTakesTheSnapshot :
    claimed.claims.isEmpty = false ∧ claimed.effectiveInterval = some 50 ∧
      (claimed.boundary 7).sched.slots ≠ [] ∧
      (State.boundary
          { claimed with
            claims := ClaimTable.empty.set .A 1 (some (active (term .full .bits8 .hold .p16 false))) }
          7).sched.slots = [] := by decide

/-- A part without claims. -/
theorem test_witness_BoundaryOverAnEmptyTableStops : opened.claims.isEmpty = true := by decide

/-- The end of the late round of example 2.11, with its claims and without. -/
theorem test_witness_LateRoundSlips :
    lateEnd.conv.work = some ⟨.plan 3, 3, .full, .bits12, .direct, 19800, 23100⟩ ∧
      3 + 1 = lateEnd.sched.slots.length ∧ lateEnd.sched.state = .late ∧
      lateEnd.sched.startPending = false ∧ lateEnd.claims.isEmpty = false ∧
      ClaimTable.empty.isEmpty = true := by decide

/-- STATUS of a part with claims, with and without an interval, in a plan and free. -/
theorem test_witness_StatusReportsThePart :
    (ask claimed .A 0x04 []).Asks .A (request 0x04 []) .status ∧
      (ask claimed .A 0x04 []).effectiveInterval = some 50 ∧
      (ask opened .A 0x04 []).effectiveInterval = none ∧
      lateState.sched.snapshotInterval = some 20 ∧ claimed.sched.snapshotInterval = none ∧
      (ask claimed .A 0x04 []).profile 15 = none ∧
      (ask claimed .A 0x04 []).profile 2 = some ⟨.full, .bits10, .hold, .p1, false⟩ ∧
      live.demand.entries.length ≤ 255 ∧ live.capture.list.length ≤ 255 ∧
      (live.resultsOf .A).records.length ≤ 255 ∧ (live.eventsOf .A).events.length ≤ 255 :=
  ⟨⟨rfl, rfl, fun _ => rfl, rfl⟩, by decide, by decide, by decide, by decide, by decide,
    by decide, by decide, by decide, by decide, by decide⟩

/-- Inputs that clip at either end, and the last ones that do not; work of the three kinds, and inputs that
nobody has named. -/
theorem test_witness_CodeOfAVoltage :
    (Work.mk (.plan 3) 3 .full .bits12 .direct 19800 23100).kind = .plan 3 ∧
      demandWork.kind = .demand 4 .B false ∧ demandWork.range ≠ .bipolar ∧
      (Work.mk (.plan 0) 3 .bipolar .bits12 .direct 0 3300).range = .bipolar ∧
      (Work.mk (.capture 1 0) 11 .full .bits12 .hold 3300 5400).kind = .capture 1 0 ∧
      [ValueSlot.mk 0 (some 3300) false none, ⟨0, none, false, none⟩][0]? =
        some ⟨0, some 3300, false, none⟩ ∧
      heldState.analog = [] ∧
    clipOf .low .bits8 0 = false ∧ clipOf .low .bits8 1249999999 = false ∧
      clipOf .low .bits8 1250000000 = true ∧ clipOf .low .bits8 (-1) = true := by decide

/-- A reduction by four bits and one by none, of codes in their code spaces. -/
theorem test_witness_ReductionDropsLowBits :
    resolutionBits .bits8 ≤ resolutionBits .bits12 ∧ resolutionBits .bits12 ≤ resolutionBits .bits12 ∧
      inCodeSpace .bipolar .bits12 (-2048) = true ∧ inCodeSpace .full .bits12 4095 = true := by decide

/-- The last slot of a RUNNING round, and a slot that is not the last; A receives and B does not. -/
theorem test_witness_PlanCompletionDelivers :
    lateState.conv.work = some ⟨.plan 3, 3, .full, .bits12, .direct, 19800, 23100⟩ ∧
      lateState.sched.startPending = false ∧ 3 + 1 = lateState.sched.slots.length ∧
      lateState.sched.state = .running ∧ 2 + 1 ≠ lateState.sched.slots.length ∧
      lateState.receiver .A ⟨.plan 3, 3, .full, .bits12, .direct, 19800, 23100⟩ =
        some (active lateTerms) ∧
      lateState.receiver .B ⟨.plan 3, 3, .full, .bits12, .direct, 19800, 23100⟩ = none := by decide

/-- A demand in flight, with start pending and without. -/
theorem test_witness_DemandCompletion :
    lateState.sched.currentRound = some 40 ∧ opened.sched.currentRound = none ∧
      (firstAsked .reset (some demandWork)).conv.work = some demandWork ∧
      demandWork.kind = .demand 4 .B false ∧
      (firstAsked .reset (some demandWork)).sched.startPending = false ∧
      (firstAsked { Scheduler.reset with startPending := true } (some demandWork)).sched.startPending =
        true := by decide

/-- The capture of example 3.8. -/
def heldCapture : Capture := ⟨1, .A, [⟨11, .full⟩, ⟨9, .full⟩], .bits12, .immediate, none⟩

/-- Example 3.8 with the bank in another state. -/
def heldWith (bank : Bank) : State :=
  heldState.setCapture { heldState.capture with bank := bank }

/-- The bank of example 3.8 with its second value taken and stored before the first comes. -/
def lastValueBank : Bank :=
  .holding heldCapture false 1000
    [⟨0, some 3300, false, none⟩, ⟨0, some 1200, false, some (5, false)⟩]

/-- A capture conversion in flight; with its value the first of two, the last, and of a cancelled
capture; and with start pending. -/
theorem test_witness_CaptureConversionCompletes :
    heldState.conv.work = some ⟨.capture 1 0, 11, .full, .bits12, .hold, 3300, 5400⟩ ∧
      heldState.sched.startPending = false ∧
      heldState.capture.bank =
        .holding heldCapture false 1000 [⟨0, some 3300, false, none⟩, ⟨0, none, false, none⟩] ∧
      (∃ v ∈ [ValueSlot.mk 0 (some 3300) false none, ⟨0, none, false, none⟩].modify 0 fun v =>
          { v with result := some (5, false) },
        v.result = none) ∧
      (ValueSlot.mk 0 (some 1200) false (some (5, false))).result = some (5, false) ∧
      (heldWith lastValueBank).capture.bank = lastValueBank ∧
      (∀ v ∈
          [ValueSlot.mk 0 (some 3300) false none, ⟨0, some 1200, false, some (5, false)⟩].modify 0
            fun v => { v with result := some (5, false) },
        v.result ≠ none) ∧
      (heldWith (.holding heldCapture true 1000 [⟨0, some 3300, false, none⟩])).capture.bank =
        .holding heldCapture true 1000 [⟨0, some 3300, false, none⟩] ∧
      (heldWith (.holding heldCapture true 1000 [⟨0, some 3300, false, none⟩])).conv.work =
        heldState.conv.work ∧
      (heldState.setSched { Scheduler.reset with startPending := true }).sched.startPending = true ∧
      (heldState.setSched { Scheduler.reset with startPending := true }).conv.work =
        heldState.conv.work := by decide

/-- A part outside a round with capture 1 HOLDING, its values all taken or one not. -/
def outside (bank : Bank) : State :=
  { heldState with
    sched := doneSched, conv := ⟨none, true⟩, capture := { heldState.capture with bank := bank } }

/-- The bank of example 3.8 with both values taken: channels 11 and 9 held, and no offer. -/
def spentBank : Bank :=
  .holding heldCapture false 1000 [⟨0, some 3300, false, some (5, false)⟩, ⟨0, some 5400, false, none⟩]

/-- Offers of an interstitial value; no offer of a spent, a cancelled or an ARMED bank; demands behind held
ones; and the first value slot not taken behind a taken one. -/
theorem test_witness_ArbiterOutsideARound :
    (outside heldState.capture.bank).sched.inRound = false ∧
      (outside heldState.capture.bank).capture.bank.offer = some (heldCapture, 1, ⟨9, .full⟩) ∧
      (outside spentBank).capture.bank.offer = none ∧
      (outside spentBank).demand.entries =
        [⟨4, .B, 11, .full, .bits12, .hold⟩] ++ ⟨5, .A, 5, .full, .bits8, .direct⟩ :: [] ∧
      (∀ x ∈ [Demand.mk 4 .B 11 .full .bits12 .hold], (outside spentBank).isHeld x.channel = true) ∧
      (outside spentBank).isHeld 5 = false ∧
      (∀ d ∈ ((outside spentBank).setDemand ⟨[⟨4, .B, 11, .full, .bits12, .hold⟩], 5⟩).demand.entries,
        (outside spentBank).isHeld d.channel = true) ∧
      heldState.capture.bank =
        .holding heldCapture false 1000
          ([⟨0, some 3300, false, none⟩] ++ ⟨0, none, false, none⟩ :: []) ∧
      heldCapture.items[1]? = some ⟨9, .full⟩ ∧
      (∀ x ∈ [ValueSlot.mk 0 (some 3300) false none], x.start ≠ none) ∧
      (ValueSlot.mk 0 none false none).start = none ∧
      (∀ v ∈ [ValueSlot.mk 0 (some 3300) false (some (5, false)), ⟨0, some 5400, false, none⟩],
        v.start ≠ none) ∧
      (outside (.holding heldCapture true 1000 [⟨0, none, false, none⟩])).capture.bank.offer = none ∧
      armedState.capture.bank = .armed capture7 5000000 := by decide

/-- In a round: eligible work with the plan mark; and with no mark, slots offered that are held and not
held, among them the last. -/
theorem test_witness_ArbiterInsideARound :
    lateState.sched.state = .running ∧ lateEnd.sched.state = .late ∧
      heldState.sched.inRound = true ∧ heldState.conv.planMark = true ∧
      heldState.interstitialEligible = true ∧
      (heldState.setConv ⟨none, false⟩).conv.planMark = false ∧
      heldState.sched.slots.drop heldState.sched.slotPosition ≠ [] ∧
      ((heldState.sched.slots.drop 1).map fun sl => heldState.isHeld sl.channel) =
        [true, false, false, true, true] := by decide

/-- A held channel and one that is not, and a Converter IDLE and BUSY. -/
theorem test_witness_WhatTheConverterStarts_offers :
    heldState.isHeld 9 = true ∧ heldState.isHeld 2 = false ∧ captureStart.conv.work = none ∧
      heldState.conv.work ≠ none := by decide

/-- The completion of example 3.8 at 5.4 starts plan work; that of example 2.11 at 23.1, a plan slot's,
starts a demand in a round. -/
theorem test_witness_WhatTheConverterStarts :
    (∃ w, (after (exec .conversionComplete heldState)).conv.work = some w ∧
        ∀ tag pos, w.kind ≠ .capture tag pos) ∧
      ∃ w, (after (exec .conversionComplete lateEnd)).sched.inRound = true ∧
        (after (exec .conversionComplete lateEnd)).conv.work = some w ∧ ∀ k, w.kind ≠ .plan k :=
  ⟨⟨⟨.plan 2, 2, .full, .bits10, .hold, 5400, 6900⟩, by decide, fun _ _ h => by cases h⟩,
    ⟨.demand 4 .B false, 5, .full, .bits12, .direct, 23100, 26400⟩, by decide, by decide,
    fun _ h => by cases h⟩

/-- READ_NOWs on a channel of another range, with two entries of the session, with six in all, and one below
both limits; a counter whose tag is free, and one whose tag an outstanding demand carries and the next is
free. -/
theorem test_witness_ReadNowByCase :
    (ask demandState .A 0x20 [5, 2, 8, 0]).Asks .A (request 0x20 [5, 2, 8, 0]) .readNow ∧
      readReadNow [5, 2, 8, 0] = some ⟨5, .full, .bits8, .direct⟩ ∧
      ¬demandState.TakesRange 2 .bipolar ∧ demandState.TakesRange 5 .full ∧
      demandState.TakesRange 2 .full ∧
      (DemandQueue.mk (List.replicate 2 ⟨254, .A, 3, .full, .bits12, .hold⟩) 0).countOf .A = 2 ∧
      (DemandQueue.mk (List.replicate 6 ⟨254, .B, 3, .full, .bits12, .hold⟩) 0).countOf .A = 0 ∧
      demandState.demand.countOf .A = 1 ∧ demandState.demand.entries.length < 6 ∧
      demandState.demand.nextTag ∉ demandState.outstandingTags ∧
      (demandState.setDemand { demandState.demand with nextTag := 254 }).demand.nextTag + 0 ∈
        (demandState.setDemand { demandState.demand with nextTag := 254 }).outstandingTags ∧
      (demandState.setDemand { demandState.demand with nextTag := 254 }).demand.nextTag + 1 ∉
        (demandState.setDemand { demandState.demand with nextTag := 254 }).outstandingTags := by
  have two : demandState.profile 2 = some ⟨.full, .bits10, .hold, .p1, false⟩ := by decide
  have five : demandState.profile 5 = none := by decide
  refine ⟨⟨rfl, rfl, fun _ => rfl, rfl⟩, by decide, ?_, ?_, ?_, by decide, by decide, by decide,
    by decide, by decide, by decide, by decide⟩
  · intro h
    exact absurd (h _ two) (by decide)
  · intro f h
    rw [five] at h
    cases h
  · intro f h
    rw [two] at h
    cases h
    rfl

/-- CAPTUREs on a channel of another range, of a session with a capture in the list, and of one without. -/
theorem test_witness_CaptureByCase :
    (ask armedState .A 0x21 [1, 10, 0, 0, 0, 5, 1]).Asks .A (request 0x21 [1, 10, 0, 0, 0, 5, 1])
        .capture ∧
      readCapture [1, 10, 0, 0, 0, 5, 1] = some ⟨[⟨5, .low⟩], .bits10, .immediate, none⟩ ∧
      ¬claimed.TakesRange 2 .low ∧ armedState.TakesRange 5 .low ∧
      (∃ cp ∈ armedState.capture.list, cp.session = .A) ∧
      ∀ cp ∈ armedState.capture.list, cp.session ≠ .B := by
  have two : claimed.profile 2 = some ⟨.full, .bits10, .hold, .p1, false⟩ := by decide
  have five : armedState.profile 5 = none := by decide
  refine ⟨⟨rfl, rfl, fun _ => rfl, rfl⟩, by decide, ?_, ?_, by decide, by decide⟩
  · intro h
    exact absurd (h _ two) (by decide)
  · intro f h
    rw [five] at h
    cases h

/-- A FREE bank with a head that waits for an edge and with one that does not, and a bank that is not
FREE. -/
theorem test_witness_BankTakesTheHead :
    captureStart.capture.bank = .free ∧ captureStart.capture.list = [] ∧
      armedState.capture.bank ≠ .free ∧ capture7.trigger = .line .trg0 .rising ∧
      capture7.armTimeout = some 5 ∧
      (CaptureBank.mk [capture7] .free 0 8 (.const none)).list = capture7 :: [] ∧
      (CaptureBank.mk [heldCapture] .free 0 2 (.const none)).list = heldCapture :: [] ∧
      heldCapture.trigger = .immediate := by decide

/-- CANCEL_CAPTURE with the capture ARMED, HOLDING with a conversion of it in flight and with none, waiting
behind another session's, out of the list and last finished, and unknown. -/
theorem test_witness_CancelCaptureByPlace :
    (ask armedState .A 0x22 [7]).Asks .A (request 0x22 [7]) .cancelCapture ∧
      (∃ cp ∈ armedState.capture.list, cp.session = .A ∧ cp.tag = 7) ∧
      armedState.capture.bank = .armed capture7 5000000 ∧ capture7.session = .A ∧
      (∃ cp ∈ heldState.capture.list, cp.session = .A ∧ cp.tag = 1) ∧
      heldState.captureInFlight 1 = true ∧ (outside spentBank).captureInFlight 1 = false ∧
      (∀ cp ∈ armedState9.capture.list, ¬(cp.session = .A ∧ cp.tag = 7)) ∧
      armedState9.capture.lastFinished.get .A = some 7 ∧
      armedState9.capture.lastFinished.get .A ≠ some 8 ∧
      armedState9.capture.bank = .armed capture9 2007800 ∧ capture9.session ≠ .A :=
  ⟨⟨rfl, rfl, fun _ => rfl, rfl⟩, by decide, by decide, by decide, by decide, by decide, by decide,
    by decide, by decide, by decide, by decide, by decide⟩

/-- The places of a cancel that leave the bank as it is: FREE, another session's capture in it, and a
cancelled one. -/
theorem test_witness_CancelCaptureByPlace_waiting :
    (∃ cp ∈ (CaptureBank.mk [capture7] .free 0 8 (.const none)).list, cp.session = .A ∧ cp.tag = 7) ∧
      (∃ cp ∈ (CaptureBank.mk [capture9, capture7] (.armed capture9 5) 0 8 (.const none)).list,
        cp.session = .A ∧ cp.tag = 7) ∧
      ∃ cp ∈
        (CaptureBank.mk [capture7] (.holding heldCapture true 1000 []) 0 8 (.const none)).list,
        cp.session = .A ∧ cp.tag = 7 := by decide

/-- Capture 7 HOLDING, with a number of extra edges counted. -/
def edgeState (cancelled : Bool) (edges : Nat) : State :=
  armedState.setCapture
    { armedState.capture with
      bank := .holding capture7 cancelled 9000 (List.replicate 3 ⟨0, none, false, none⟩)
      extraEdges := edges }

/-- An ARMED capture whose trigger matches one edge and not another; HOLDING, with a line trigger that matches
one edge and not another, cancelled, and IMMEDIATE; and a FREE bank. -/
theorem test_witness_TriggerEdgeByBankState :
    armedState.capture.bank = .armed capture7 5000000 ∧ capture7.trigger = .line .trg0 .rising ∧
      capture7.trigger ≠ .line .trg1 .rising ∧
      (∀ cancelled edges,
        (edgeState cancelled edges).capture.bank =
          .holding capture7 cancelled 9000 (List.replicate 3 ⟨0, none, false, none⟩)) ∧
      heldState.capture.bank =
        .holding heldCapture false 1000 [⟨0, some 3300, false, none⟩, ⟨0, none, false, none⟩] ∧
      heldCapture.trigger ≠ .line .trg0 .rising ∧ captureStart.capture.bank = .free :=
  ⟨by decide, by decide, by decide, fun _ _ => rfl, by decide, by decide, by decide⟩

/-- R83: matching edges while HOLDING count, up to 255; a cancelled capture counts none. -/
theorem test_extra_edges :
    (after (exec (.triggerEdge 9500 .trg0 .rising) (edgeState false 254))).capture.extraEdges = 255 ∧
      (after (exec (.triggerEdge 9500 .trg0 .rising) (edgeState false 255))).capture.extraEdges = 255 ∧
      (after (exec (.triggerEdge 9500 .trg0 .falling) (edgeState false 254))).capture.extraEdges = 254 ∧
      (after (exec (.triggerEdge 9500 .trg0 .rising) (edgeState true 254))).capture.extraEdges = 254 := by
  decide

/-- An ARMED capture. -/
theorem test_witness_ArmTimeoutEndsTheCapture :
    armedState9.capture.bank = .armed capture9 2007800 := by decide

/-- A STATUS over a table with a VALID entry. -/
theorem test_witness_EntriesChangeOnlyByCompletions :
    (∃ u, exec (.status .A) { live with table := .const { TableEntry.reset with valid := true } } =
        .next u) ∧
      Instr.status .A ≠ .powerOn ∧ Instr.status .A ≠ .rstn ∧ Instr.status .A ≠ .conversionComplete ∧
      ((PerChannel.const { TableEntry.reset with valid := true }).get 3).valid = true :=
  ⟨⟨_, rfl⟩, by decide, by decide, by decide, by decide⟩

/-- GET_RESULTS of 32 from a queue of 32 PLAN records, where 26 fit. -/
theorem test_witness_GetResultsTakesWhatFits :
    (drain (List.replicate 32 planRecord)).Asks .B (request 0x30 [32]) .getResults ∧
      readUpTo32 [32] = some 32 ∧
      ((drain (List.replicate 32 planRecord)).resultsOf .B).records ≠ [] ∧
      ∀ r ∈ ((drain (List.replicate 32 planRecord)).resultsOf .B).records, r.bytes.length ≤ 39 :=
  ⟨⟨rfl, rfl, fun _ => rfl, rfl⟩, by decide, by decide, by decide⟩

/-- One of each format, with fields at the ends of their ranges (Tables 10-12, 10-13 and 10-14). -/
theorem test_layouts :
    (TableEntry.mk true (-32768) .bits12 258 .demand true true).bytes 15 =
        [15, 15, 128, 0, 12, 1, 2] ∧
      (Record.plan 2 (-1) .bits8 101 255 15 true true).bytes = [1, 2, 255, 255, 8, 0, 101, 255, 63] ∧
      (Record.demand 254 3 32767 .bits12 258 true).bytes = [2, 254, 3, 127, 255, 12, 1, 2, 1] ∧
      (Record.capture 7 (.line .trg1 .falling) 258 255 [⟨2, 5, true, false⟩, ⟨9, 0, false, true⟩]).bytes =
        [3, 7, 4, 1, 2, 255, 2, 2, 0, 5, 1, 9, 0, 0, 2] ∧
      (Event.window 5 .inside .above (-2) 258).bytes = [1, 5, 1, 2, 255, 254, 1, 2] ∧
      (Event.roundSlip 258 255).bytes = [2, 1, 2, 255, 0, 0, 0, 0] ∧
      (Event.captureTimeout 9).bytes = [3, 9, 0, 0, 0, 0, 0, 0] ∧
      (Event.profileChanged 5 .bits10 .hold .p16 true).bytes = [4, 5, 10, 1, 16, 1, 0, 0] ∧
      (Event.paceChanged 65535).bytes = [5, 255, 255, 0, 0, 0, 0, 0] := by decide

/-- The four requests, with LAPSED and without, at the ends of their fields. -/
theorem test_witness_StoreRequests :
    (ask live .A 0x31 []).Asks .A (request 0x31 []) .resume ∧
      ((ask live .A 0x31 []).resultsOf .A).lapsed = true ∧
      ((ask live .B 0x31 []).resultsOf .B).lapsed = false ∧
      (ask live .A 0x33 [1]).Asks .A (request 0x33 [1]) .setWatermark ∧ readUpTo32 [1] = some 1 ∧
      readUpTo32 [32] = some 32 ∧
      (ask live .A 0x32 [128, 1]).Asks .A (request 0x32 [128, 1]) .readTable ∧
      readMask [128, 1] = some 0x8001#16 ∧
      (ask live .A 0x40 [8]).Asks .A (request 0x40 [8]) .getEvents ∧ readUpTo8 [8] = some 8 ∧
      readUpTo8 [1] = some 1 :=
  ⟨⟨rfl, rfl, fun _ => rfl, rfl⟩, by decide, by decide, ⟨rfl, rfl, fun _ => rfl, rfl⟩, by decide,
    by decide, ⟨rfl, rfl, fun _ => rfl, rfl⟩, by decide, ⟨rfl, rfl, fun _ => rfl, rfl⟩, by decide,
    by decide⟩

/-- Values at, below and above the bounds of a window. -/
theorem test_witness_WindowClassification :
    Window.valid ⟨some 1000, some 3000, 3⟩ .full .bits12 = true ∧
      classify ⟨some 1000, some 3000, 3⟩ 1000 = .inside ∧
      classify ⟨some 1000, some 3000, 3⟩ 999 = .below ∧
      classify ⟨some 1000, some 3000, 3⟩ 3000 = .inside ∧
      classify ⟨some 1000, some 3000, 3⟩ 3001 = .above := by decide

/-- A run of ABOVE from INSIDE over a BELOW candidate, with confirm counts 1 and 4. -/
theorem test_witness_WindowConfirmation :
    1 ≤ 4 ∧ 1 ≤ 1 ∧ WindowState.above ≠ .unknown ∧ WindowState.inside ≠ .unknown ∧
      WindowState.above ≠ .inside ∧
      watched.terms.window = some ⟨some 1000, some 3000, 3⟩ ∧ (active lateTerms).terms.window = none ∧
      (watched.watch 3400).event = true ∧ (watched.watch 2000).event = false ∧
      ∀ c, some (Candidate.mk .below 2) = some c → c.state ≠ .above := by
  refine ⟨by decide, by decide, by decide, by decide, by decide, by decide, by decide, by decide,
    by decide, ?_⟩
  intro c h
  cases h
  decide

/-- Full queues and empty ones, and a LAPSED queue at the greatest lost count. -/
theorem test_witness_QueuesTakeWhatIsHanded :
    (EventQueue.mk (List.replicate 8 (.captureTimeout 1)) false).events.length ≤ 8 ∧
      EventQueue.reset.events.length ≤ 8 ∧ ResultQueue.reset.lapsed = false ∧
      ResultQueue.reset.lost = 0 ∧ (List.replicate 32 planRecord).length ≤ 32 ∧
      (live.resultsOf .A).lapsed = true ∧ (live.resultsOf .A).lost ≤ 65535 := by decide

/-- An OPEN of a CLOSED session, of the fields' least values, and of an OPEN one. -/
theorem test_witness_OpenByState :
    (ask opened .C 0x01 [0, 20, 0, 10, 0]).Asks .C (request 0x01 [0, 20, 0, 10, 0]) .openKind ∧
      readOpen [0, 20, 0, 10, 0] = some ⟨20, 10, 0⟩ ∧
      (ask opened .C 0x01 [0, 20, 0, 10, 0]).sessionOpen .C = false ∧
      (ask opened .A 0x01 [0, 20, 0, 10, 0]).sessionOpen .A = true :=
  ⟨⟨rfl, rfl, by decide, rfl⟩, by decide, by decide, by decide⟩

/-- Teardowns with the Converter BUSY: of the session whose HOLDING capture has a conversion in flight, of one
with no capture, of one whose capture waits ARMED and of another. -/
theorem test_witness_TeardownInEveryBlock :
    live.CapturesLawful ∧ (live.sched.inRound = true → live.conv.work ≠ none) ∧
      live.conv.work ≠ none ∧
      live.capture.bank =
        .holding heldCapture false 1000 [⟨0, some 3300, false, none⟩, ⟨0, none, false, none⟩] ∧
      heldCapture.session = .A ∧ live.captureInFlight heldCapture.tag = true ∧
      (∀ cp ∈ live.capture.list, cp.session ≠ .C) ∧
      (armedState.setConv ⟨some demandWork, false⟩).CapturesLawful ∧
      (armedState.setConv ⟨some demandWork, false⟩).conv.work ≠ none ∧
      (armedState.setConv ⟨some demandWork, false⟩).capture.bank = .armed capture7 5000000 ∧
      capture7.session = .A :=
  ⟨⟨by decide, by decide, by decide, rfl, fun _ => rfl⟩, by decide, by decide, by decide, rfl,
    by decide, by decide, ⟨by decide, by decide, by decide, rfl⟩, by decide, by decide, rfl⟩

/-- Teardowns with the Converter IDLE: of the session whose ARMED capture it is, of one whose HOLDING capture
has no conversion in flight, and beside a cancelled capture. -/
theorem test_witness_TeardownInEveryBlock_idle :
    armedState.CapturesLawful ∧ armedState.sched.inRound = false ∧ armedState.conv.work = none ∧
      (outside spentBank).CapturesLawful ∧ (outside spentBank).sched.inRound = false ∧
      (outside spentBank).conv.work = none ∧
      (outside spentBank).captureInFlight heldCapture.tag = false ∧
      (outside (.holding heldCapture true 1000
            [⟨0, some 3300, false, none⟩, ⟨0, none, false, none⟩])).CapturesLawful :=
  ⟨⟨by decide, by decide, by decide, rfl⟩, by decide, by decide,
    ⟨by decide, by decide, by decide, rfl, fun _ => rfl⟩, by decide, by decide, by decide,
    ⟨by decide, by decide, by decide, rfl, fun _ => rfl⟩⟩

/-- CLOSE, LINK_RESET of an OPEN and of a CLOSED session, and a running lease timer. -/
theorem test_witness_SessionsEnd :
    (ask opened .A 0x02 []).Asks .A (request 0x02 []) .close ∧
      (ask opened .A 0x03 []).Asks .A (request 0x03 []) .linkReset ∧
      (ask opened .A 0x03 []).sessionOpen .A = true ∧
      (ask opened .C 0x03 []).sessionOpen .C = false ∧ opened.sessionOpen .A = true ∧
      (opened.sessionOf .A).leaseTimer = some 25000000 :=
  ⟨⟨rfl, rfl, fun _ => rfl, rfl⟩, ⟨rfl, rfl, fun _ => rfl, rfl⟩, by decide, by decide, by decide,
    by decide⟩

/-- The three ways an epoch goes: unchanged, to 0, and up by one. -/
theorem test_witness_EpochChangesOnlyByOpen :
    (∃ u, exec .pacingTick opened = .next u) ∧ (∃ u, exec .powerOn opened = .next u) ∧
      ∃ u, exec (.openSession 7 .C) (ask opened .C 0x01 [0, 20, 0, 10, 0]) = .next u ∧
        (u.sessionOf .C).epoch = 1 :=
  ⟨⟨_, rfl⟩, ⟨_, rfl⟩, ⟨_, rfl, by decide⟩⟩

/-- A selection under way on port B. -/
def selected (h : HostPort) : State :=
  opened.setPort .B { h with selection := some ⟨64, false⟩ }

/-- A select at rest with RSTN released, without a reply and with one of no payload bytes and of 240; RSTN
asserted; a selection under way and a command that is not its release; and an alert line for each of its
three grounds. -/
theorem test_witness_SelectAssertFixesTheStatus :
    opened.rstnAsserted = false ∧ (opened.portOf .A).selection = none ∧
      (opened.portOf .A).reply = none ∧ (live.portOf .B).reply = none ∧
      (Reply.mk 0x30 7 0 []).payload.length ≤ 240 ∧
      (Reply.mk 0x30 7 0 (List.replicate 240 1)).payload.length ≤ 240 ∧
      (after (exec .rstn opened)).rstnAsserted = true ∧
      (∀ p, (((selected .reset).portOf p).request.isSome = true →
        ((selected .reset).portOf p).reply = none)) ∧
      ((selected .reset).portOf .B).selection = some ⟨64, false⟩ ∧
      (∃ u, exec .pacingTick (selected .reset) = .next u) ∧
      (∀ t sdi, Instr.pacingTick ≠ .selectRelease t .B sdi) ∧ Instr.pacingTick ≠ .powerOn ∧
      Instr.pacingTick ≠ .rstn ∧ (opened.sessionOf .A).isOpen = true ∧
      (live.eventsOf .A).events ≠ [] ∧ (live.resultsOf .A).lapsed = true ∧
      ResultQueue.reset.watermark ≤ (List.replicate 16 planRecord).length ∧
      opened.alertAsserted .A = false :=
  ⟨by decide, by decide, by decide, by decide, by decide, le_of_eq List.length_replicate, by decide,
    every_port (by decide) (by decide) (by decide), by decide, ⟨_, rfl⟩, (fun _ _ h => by cases h),
    by decide, by decide, by decide, by decide, by decide, by decide, by decide⟩

/-- The reply of example 9.9 shown on port B: status byte 192, the reply's four bytes and payload, its CRC,
and fill bytes (R141, R158). -/
theorem test_shifted_out :
    (opened.setPort .B
          { HostPort.reset with
            reply := some ⟨0x30, 7, 0, [0, 0]⟩, selection := some ⟨192, true⟩ }).shiftedOut .B =
        [192, 0x30, 7, 0, 2, 0, 0] ++
          u16 (crc16 [0x30, 7, 0, 2, 0, 0]).toNat := by decide +kernel

/-- The status byte 192 and the kind byte 0x30 as bits, most significant first (9.2). -/
theorem test_shifted_bits :
    (List.range 16).map
        ((opened.setPort .B
          { HostPort.reset with
            reply := some ⟨0x30, 7, 0, [0, 0]⟩, selection := some ⟨192, true⟩ }).sdoBit .B) =
      [true, true, false, false, false, false, false, false,
        false, false, true, true, false, false, false, false] := by decide +kernel

/-- Selections that carry nothing, one bit short of a byte and a first byte of 0, and a frame with either
slot occupied. -/
theorem test_witness_ReleaseSettlesTheSelection :
    (opened.portOf .B).selection = none ∧
      ({ selected .reset with rstnAsserted := true } : State).rstnAsserted = true ∧
      (selected .reset).rstnAsserted = false ∧
      ((selected .reset).portOf .B).selection = some ⟨64, false⟩ ∧
      carried (List.replicate 7 true) = .nothing ∧ carried (List.replicate 8 false) = .nothing ∧
      carried (List.replicate 8 true) ≠ .nothing ∧
      ((((selected { HostPort.reset with request := some (request 0x40 [1]) }).portOf .B).settled
          ⟨64, false⟩ 8).request.isSome = true) ∧
      (((selected { HostPort.reset with reply := some ⟨0x30, 7, 0, []⟩ }).portOf .B).settled
          ⟨64, false⟩ 8).reply.isSome = true := by decide

/-- An OPEN frame and a REPEAT frame with the CRCs that R145 gives, computed outside the model. -/
def goodOpen : Frame := ⟨0x01, 3, [0, 100, 0, 20, 0], 0xA1F1⟩

/-- A REPEAT of length 0. -/
def goodRepeat : Frame := ⟨0x05, 3, [], 0x8447⟩

theorem test_witness_FrameTakenByCase :
    carried (List.replicate 8 true) = .malformed 255 0 ∧ carried goodOpen.bits = .frame goodOpen ∧
      goodOpen.good = true ∧ (request 0x01 [0, 100, 0, 20, 0]).good = false ∧
      carried goodRepeat.bits = .frame goodRepeat ∧ goodRepeat.good = true ∧
      goodRepeat.kind = 5 ∧ goodRepeat.payload = [] ∧ ¬(goodOpen.kind = 5 ∧ goodOpen.payload = []) ∧
      ((selected .reset).portOf .B).memory ≠ some goodOpen.remembered ∧
      ((selected .reset).portOf .B).lastReply = none ∧
      ((selected { HostPort.reset with memory := some goodOpen.remembered }).portOf .B).memory =
        some goodOpen.remembered := by decide +kernel

/-- The least and the greatest payload, and the first length above it; and the bits at which each part of
the frame ends. -/
theorem test_witness_FramesReadBack :
    goodRepeat.kind ≠ 0 ∧ goodRepeat.payload.length ≤ 240 ∧
      (request 0x40 (List.replicate 240 1)).payload.length ≤ 240 ∧ 240 < (241 : Byte).toNat ∧
      goodRepeat.bits.length = 40 ∧ carried (goodRepeat.bits.take 8) = .malformed 5 0 ∧
      carried (goodRepeat.bits.take 15) = .malformed 5 0 ∧
      carried (goodRepeat.bits.take 16) = .malformed 5 3 ∧
      carried (goodRepeat.bits.take 39) = .malformed 5 3 := by decide +kernel

/-- Requests that fail each common check in turn. -/
theorem test_witness_CommonChecksInOrder :
    kindOf 0x50 = none ∧ kindOf 0x05 = some .repeatKind ∧
      requestOf (.getEvents .A) = some (.A, .getEvents) ∧
      ((ask opened .A 0x40 [9]).portOf .A).request = some (request 0x40 [9]) ∧
      kindOf 0x40 = some .getEvents ∧ opened.sessionOpen .C = false ∧ opened.sessionOpen .A = true ∧
      tableLength .getEvents [] ≠ some 0 ∧ tableLength .getEvents [9] = some 1 ∧
      fieldsValid .getEvents [9] = false ∧ fieldsValid .getEvents [8] = true ∧
      tableLength .capture [8, 0, 0] = some 21 := by decide

/-- Fields at the ends of their ranges and one beyond, and grounds of R15 and R78 (Tables 10-7 to 10-9). -/
theorem test_fields :
    readOpen [0, 20, 234, 96, 32] = some ⟨20, 60000, 32⟩ ∧ readOpen [0, 20, 234, 97, 32] = none ∧
      readOpen [255, 255, 0, 10, 0] = some ⟨65535, 10, 0⟩ ∧ readOpen [0, 19, 0, 10, 0] = none ∧
      readOpen [0, 20, 0, 10, 33] = none ∧ readUpTo32 [0] = none ∧ readUpTo32 [33] = none ∧
      readUpTo8 [9] = none ∧
      readClaim [0, 3, 8, 0, 1, 1, 0, 7, 255, 128, 0, 127, 4] =
        some ⟨0, { term .bipolar .bits8 .direct .p1 true with
          window := some ⟨some (-128), some 127, 4⟩ }⟩ ∧
      readClaim [0, 3, 8, 0, 1, 1, 0, 7, 255, 128, 0, 128, 4] = none ∧
      readClaim [0, 3, 8, 0, 2, 1, 0, 0, 0, 0, 0, 0, 0] = none ∧
      readClaim [0, 3, 8, 0, 1, 0, 0, 1, 0, 0, 0, 0, 1] = none ∧
      readCapture [1, 12, 1, 0, 0, 15, 3] = none ∧
      readCapture [1, 12, 1, 39, 16, 15, 3] =
        some ⟨[⟨15, .bipolar⟩], .bits12, .line .trg0 .rising, some 10000⟩ := by decide

/-- A command of port A, and one of no port. -/
theorem test_witness_OtherPortsUntouched :
    (∃ u, exec (.status .A) live = .next u) ∧ portOfCommand (.status .A) = some .A ∧
      (∃ u, exec .pacingTick live = .next u) ∧ portOfCommand .pacingTick = none ∧
      Instr.pacingTick ≠ .powerOn ∧ Instr.pacingTick ≠ .rstn :=
  ⟨⟨_, rfl⟩, by decide, ⟨_, rfl⟩, by decide, by decide, by decide⟩

end Sys2Proof.Tests
end

section
/-! SUPPORT. The reserve and the load channel by channel: what claims kept or removed do to them, and why
the load stays within the reserve (R6, R9 to R11). -/

-- In sequence: beside the tests above, parallel workers' stacks pass the memory limit of the check.
set_option Elab.async false

namespace Sys2Proof.Machine

/-! ### The profile and the worst cost of a channel, by its claims -/

/-- A profile has priority exactly if one of the claims merged into it has (R6). -/
theorem foldl_merge_priority (l : List Claim) (f : Profile) :
    (l.foldl Profile.merge f).priority = (f.priority || l.any fun cl => cl.terms.priority) := by
  induction l generalizing f with
  | nil => simp
  | cons cl l ih => simp [ih, Profile.merge, Bool.or_assoc]

theorem ClaimTable.isPriority_eq_any (ct : ClaimTable) (c : Channel) :
    ct.isPriority c = (ct.onChannel c).any fun cl => cl.terms.priority := by
  unfold ClaimTable.isPriority ClaimTable.profile
  cases ct.onChannel c with
  | nil => rfl
  | cons cl l => simp [mergeProfile, foldl_merge_priority, Claim.profile]

/-- A channel is a priority channel exactly if some session has a priority claim on it (R6). -/
theorem ClaimTable.isPriority_iff {ct : ClaimTable} {c : Channel} :
    ct.isPriority c = true ↔ ∃ p cl, ct.get p c = some cl ∧ cl.terms.priority = true := by
  rw [ClaimTable.isPriority_eq_any, List.any_eq_true]
  constructor
  · rintro ⟨cl, hm, hp⟩
    obtain ⟨p, hg⟩ := ClaimTable.mem_onChannel.mp hm
    exact ⟨p, cl, hg, hp⟩
  · rintro ⟨p, cl, hg, hp⟩
    exact ⟨cl, ClaimTable.mem_onChannel.mpr ⟨p, hg⟩, hp⟩

/-- The claimed channels are the normal and the priority ones (R6). -/
theorem ClaimTable.isNormal_eq (ct : ClaimTable) (c : Channel) :
    ct.isNormal c = (ct.isClaimed c && !ct.isPriority c) := by
  unfold ClaimTable.isNormal ClaimTable.isClaimed ClaimTable.isPriority ClaimTable.profile
  cases ct.onChannel c <;> simp [mergeProfile]

theorem ClaimTable.isClaimed_iff {ct : ClaimTable} {c : Channel} :
    ct.isClaimed c = true ↔ ∃ p cl, ct.get p c = some cl := by
  simp only [ClaimTable.isClaimed, Bool.not_eq_true', List.isEmpty_eq_false_iff_exists_mem,
    ClaimTable.mem_onChannel]
  exact exists_comm

/-- The greatest of a list of numbers and a start is within a bound exactly if each of them is. -/
theorem foldl_max_le {l : List Nat} {a k : Nat} : l.foldl max a ≤ k ↔ a ≤ k ∧ ∀ x ∈ l, x ≤ k := by
  induction l generalizing a with
  | nil => simp
  | cons x l ih => simp [ih, and_assoc]

/-- The worst cost is the least bound of the costs of the channel's claims (R11). -/
theorem ClaimTable.worstCost_le_iff {ct : ClaimTable} {c : Channel} {k : Nat} :
    ct.worstCost c ≤ k ↔ ∀ p cl, ct.get p c = some cl → cl.cost ≤ k := by
  simp only [ClaimTable.worstCost, foldl_max_le, List.forall_mem_map, ClaimTable.mem_onChannel]
  exact ⟨fun h p cl hg => h.2 cl ⟨p, hg⟩, fun h => ⟨Nat.zero_le k, fun cl ⟨p, hg⟩ => h p cl hg⟩⟩

theorem ClaimTable.cost_le_worstCost {ct : ClaimTable} {p : Port} {c : Channel} {cl : Claim}
    (h : ct.get p c = some cl) : cl.cost ≤ ct.worstCost c :=
  ClaimTable.worstCost_le_iff.mp le_rfl p cl h

/-! ### The cost of a merged profile -/

/-- HOLD never costs more than DIRECT (Table 1-3), so merging a hold into another cannot raise the cost. -/
theorem cost_mergeHold_le (res : Resolution) (h k : Hold) :
    cost res (mergeHold h k) ≤ cost res h ∧ cost res (mergeHold h k) ≤ cost res k := by
  cases res <;> cases h <;> cases k <;> decide

/-- The cost of a profile with one more claim is within a bound of the two costs: the merged resolution is
one of the two, and the merged hold costs no more than either. -/
theorem Profile.merge_cost_le {f : Profile} {cl : Claim} {k : Nat} (hf : f.cost ≤ k)
    (hc : cl.cost ≤ k) : (f.merge cl).cost ≤ k := by
  simp only [Profile.cost, Claim.cost, Profile.merge, maxResolution] at *
  have hm := fun res => cost_mergeHold_le res f.hold cl.terms.hold
  split
  · exact (hm _).2.trans hc
  · exact (hm _).1.trans hf

theorem foldl_merge_cost_le {l : List Claim} {f : Profile} {k : Nat} (hf : f.cost ≤ k)
    (hl : ∀ cl ∈ l, cl.cost ≤ k) : (l.foldl Profile.merge f).cost ≤ k := by
  induction l generalizing f with
  | nil => exact hf
  | cons cl l ih =>
    obtain ⟨hc, hl⟩ := List.forall_mem_cons.mp hl
    exact ih (Profile.merge_cost_le hf hc) hl

/-- The cost of a channel's profile never exceeds the worst cost of its claims (R11). -/
theorem ClaimTable.profileCost_le_worstCost (ct : ClaimTable) (c : Channel) :
    ct.profileCost c ≤ ct.worstCost c := by
  have hw : ∀ cl ∈ ct.onChannel c, cl.cost ≤ ct.worstCost c := fun cl hm =>
    (ClaimTable.mem_onChannel.mp hm).elim fun _ hg => ClaimTable.cost_le_worstCost hg
  unfold ClaimTable.profileCost ClaimTable.profile
  generalize ct.onChannel c = l at hw
  cases l with
  | nil => exact Nat.zero_le _
  | cons cl l =>
    obtain ⟨hc, hl⟩ := List.forall_mem_cons.mp hw
    exact foldl_merge_cost_le (f := cl.profile) hc hl

/-! ### Load and reserve as sums over the channels -/

/-- The sum over all channels of a weight, the priority channels counted `k` times. -/
def ClaimTable.weighted (ct : ClaimTable) (k : Nat) (weight : Channel → Nat) : Nat :=
  (allChannels.map fun c => (if ct.isPriority c then k else 1) * weight c).sum

/-- Normal channels once and priority channels `k` times, for a weight that is 0 on free channels. -/
theorem ClaimTable.sumOver_eq_weighted (ct : ClaimTable) (k : Nat) {weight : Channel → Nat}
    (hfree : ∀ c, ct.isClaimed c = false → weight c = 0) :
    sumOver ct.isNormal weight + k * sumOver ct.isPriority weight = ct.weighted k weight := by
  unfold sumOver ClaimTable.weighted
  induction allChannels with
  | nil => rfl
  | cons c l ih =>
    rw [List.map_cons, List.sum_cons, ← ih]
    cases hp : ct.isPriority c with
    | true => simp [ct.isNormal_eq, hp, Nat.mul_add, Nat.add_left_comm]
    | false =>
      cases hc : ct.isClaimed c with
      | true => simp [ct.isNormal_eq, hp, hc, Nat.add_assoc]
      | false => simp [ct.isNormal_eq, hp, hc, hfree c hc]

theorem ClaimTable.worstCost_free {ct : ClaimTable} {c : Channel} (h : ct.isClaimed c = false) :
    ct.worstCost c = 0 := by
  have : ct.onChannel c = [] := by simpa [ClaimTable.isClaimed] using h
  simp [ClaimTable.worstCost, this]

theorem ClaimTable.profileCost_free {ct : ClaimTable} {c : Channel} (h : ct.isClaimed c = false) :
    ct.profileCost c = 0 :=
  Nat.le_zero.mp ((ct.profileCost_le_worstCost c).trans (ClaimTable.worstCost_free h).le)

theorem ClaimTable.load_eq_weighted (ct : ClaimTable) :
    ct.load = ct.weighted (max 1 (allChannels.filter ct.isNormal).length) ct.profileCost :=
  ct.sumOver_eq_weighted _ fun _ => ClaimTable.profileCost_free

theorem ClaimTable.reserve_eq_weighted (ct : ClaimTable) :
    ct.reserve = ct.weighted (max 1 (allChannels.filter ct.isClaimed).length) ct.worstCost :=
  ct.sumOver_eq_weighted _ fun _ => ClaimTable.worstCost_free

/-- A weighted sum grows with its weight, with its priority channels and with how often they count. -/
theorem ClaimTable.weighted_mono {x y : ClaimTable} {k m : Nat} {v w : Channel → Nat}
    (hp : ∀ c, x.isPriority c = true → y.isPriority c = true) (hk : k ≤ m) (hm : 1 ≤ m)
    (hw : ∀ c, v c ≤ w c) : x.weighted k v ≤ y.weighted m w := by
  refine List.sum_le_sum fun c _ => Nat.mul_le_mul ?_ (hw c)
  cases hx : x.isPriority c with
  | true => simpa [hp c hx] using hk
  | false => cases y.isPriority c <;> simp [hm]

theorem length_filter_channels_mono {f g : Channel → Bool} (h : ∀ c, f c = true → g c = true) :
    (allChannels.filter f).length ≤ (allChannels.filter g).length :=
  (List.monotone_filter_right _ h).length_le

/-- The load never exceeds the reserve (R11). -/
theorem ClaimTable.load_le_reserve (ct : ClaimTable) : ct.load ≤ ct.reserve := by
  rw [ct.load_eq_weighted, ct.reserve_eq_weighted]
  have hn : ∀ c, ct.isNormal c = true → ct.isClaimed c = true := fun c h => by
    rw [ct.isNormal_eq, Bool.and_eq_true] at h
    exact h.1
  exact ClaimTable.weighted_mono (fun _ h => h)
    (max_le_max_left 1 (length_filter_channels_mono hn)) (le_max_left ..)
    ct.profileCost_le_worstCost

/-! ### Claims kept or removed -/

/-- Every claim of `x` is one of `y` with the same terms: what is left of `y` when claims are removed and
the run-time fields of the others change. -/
def ClaimTable.Within (x y : ClaimTable) : Prop :=
  ∀ p c cl, x.get p c = some cl → ∃ cl', y.get p c = some cl' ∧ cl'.terms = cl.terms

theorem ClaimTable.within_of_map {x y : ClaimTable} {g : Port → Channel → Claim → Claim}
    (hg : ∀ p c cl, (g p c cl).terms = cl.terms)
    (h : ∀ p c, x.get p c = (y.get p c).map (g p c)) : x.Within y := by
  intro p c cl hx
  rw [h, Option.map_eq_some_iff] at hx
  obtain ⟨cl', hy, rfl⟩ := hx
  exact ⟨cl', hy, (hg p c cl').symm⟩

theorem ClaimTable.removeSession_within (ct : ClaimTable) (p : Port) :
    (ct.removeSession p).Within ct := by
  intro q c cl h
  rw [ClaimTable.get_removeSession] at h
  split at h
  · cases h
  · exact ⟨cl, h, rfl⟩

theorem ClaimTable.set_none_within (ct : ClaimTable) (p : Port) (c : Channel) :
    (ct.set p c none).Within ct := by
  intro q d cl h
  rw [ClaimTable.get_set] at h
  split at h
  · cases h
  · exact ⟨cl, h, rfl⟩

namespace ClaimTable.Within

variable {x y : ClaimTable}

theorem holdsClaim (h : x.Within y) {p : Port} (hp : x.holdsClaim p = true) :
    y.holdsClaim p = true := by
  obtain ⟨c, cl, hc⟩ := ClaimTable.holdsClaim_iff.mp hp
  obtain ⟨cl', hy, -⟩ := h p c cl hc
  exact ClaimTable.holdsClaim_iff.mpr ⟨c, cl', hy⟩

theorem isClaimed (h : x.Within y) {c : Channel} (hc : x.isClaimed c = true) :
    y.isClaimed c = true := by
  obtain ⟨p, cl, hg⟩ := ClaimTable.isClaimed_iff.mp hc
  obtain ⟨cl', hy, -⟩ := h p c cl hg
  exact ClaimTable.isClaimed_iff.mpr ⟨p, cl', hy⟩

theorem isPriority (h : x.Within y) {c : Channel} (hc : x.isPriority c = true) :
    y.isPriority c = true := by
  obtain ⟨p, cl, hg, hp⟩ := ClaimTable.isPriority_iff.mp hc
  obtain ⟨cl', hy, ht⟩ := h p c cl hg
  exact ClaimTable.isPriority_iff.mpr ⟨p, cl', hy, ht ▸ hp⟩

theorem worstCost_le (h : x.Within y) (c : Channel) : x.worstCost c ≤ y.worstCost c := by
  refine ClaimTable.worstCost_le_iff.mpr fun p cl hg => ?_
  obtain ⟨cl', hy, ht⟩ := h p c cl hg
  have hc : cl.cost = cl'.cost := by simp only [Claim.cost, ht]
  exact hc ▸ ClaimTable.cost_le_worstCost hy

/-- Removing claims never raises the reserve (R11). -/
theorem reserve_le (h : x.Within y) : x.reserve ≤ y.reserve := by
  rw [x.reserve_eq_weighted, y.reserve_eq_weighted]
  exact ClaimTable.weighted_mono (fun _ => h.isPriority)
    (max_le_max_left 1 (length_filter_channels_mono fun _ => h.isClaimed)) (le_max_left ..)
    h.worstCost_le

end ClaimTable.Within

end Sys2Proof.Machine
end

section
/-! SUPPORT. The budget law restated over the sessions that hold a claim, and its proof for every command
(R12 to R14). -/

-- In sequence, as the section above.
set_option Elab.async false

namespace Sys2Proof.Machine

theorem ClaimTable.isEmpty_eq_false_iff {ct : ClaimTable} :
    ct.isEmpty = false ↔ ∃ p, ct.holdsClaim p = true := by
  simp only [ClaimTable.isEmpty, Bool.not_eq_false', List.any_eq_true]
  exact ⟨fun ⟨p, _, h⟩ => ⟨p, h⟩, fun ⟨p, h⟩ => ⟨p, mem_allPorts p, h⟩⟩

/-! ### The budget of the effective round interval, pace by pace (R12, R13) -/

theorem paceOf_eq_some_iff {ss : PerPort Session} {ct : ClaimTable} {p : Port} {n : Nat} :
    paceOf ss ct p = some n ↔
      (ss.get p).isOpen = true ∧ ct.holdsClaim p = true ∧ (ss.get p).pace = some n := by
  unfold paceOf
  split
  · rename_i h
    rw [Bool.and_eq_true] at h
    simp [h]
  · rename_i h
    rw [Bool.and_eq_true] at h
    simp only [reduceCtorEq, false_iff]
    tauto

theorem minInterval_eq_none_iff {x y : Option Nat} :
    minInterval x y = none ↔ x = none ∧ y = none := by
  cases x <;> cases y <;> simp [minInterval]

theorem le_budget_minInterval {x y : Option Nat} {r : Nat} :
    (∀ i, minInterval x y = some i → r ≤ budget i) ↔
      (∀ i, x = some i → r ≤ budget i) ∧ ∀ i, y = some i → r ≤ budget i := by
  cases x with
  | none => simp [minInterval]
  | some a =>
    cases y with
    | none => simp [minInterval]
    | some b =>
      simp only [minInterval, budget, Option.some.injEq, forall_eq']
      omega

theorem withinBudget_iff {r : Nat} {o : Option Nat} :
    withinBudget r o = true ↔ o ≠ none ∧ ∀ i, o = some i → r ≤ budget i := by
  cases o <;> simp [withinBudget]

/-- There is an interval exactly if some open session with a pace holds a claim. -/
theorem intervalOf_eq_none_iff {ss : PerPort Session} {ct : ClaimTable} :
    intervalOf ss ct = none ↔ ∀ p, paceOf ss ct p = none := by
  simp only [intervalOf, minInterval_eq_none_iff]
  exact ⟨fun ⟨ha, hb, hc⟩ p => by cases p <;> assumption, fun h => ⟨h .A, h .B, h .C⟩⟩

/-- A reserve is within the budget of the interval, the least pace, exactly if there is a pace and the
reserve is within the budget of each. -/
theorem withinBudget_intervalOf_iff {ss : PerPort Session} {ct : ClaimTable} {r : Nat} :
    withinBudget r (intervalOf ss ct) = true ↔
      (∃ p n, paceOf ss ct p = some n) ∧ ∀ p n, paceOf ss ct p = some n → r ≤ budget n := by
  rw [withinBudget_iff]
  refine and_congr ?_ ?_
  · simp only [ne_eq, intervalOf_eq_none_iff, not_forall, Option.ne_none_iff_exists']
  · simp only [intervalOf, le_budget_minInterval]
    exact ⟨fun ⟨ha, hb, hc⟩ p => by cases p <;> assumption, fun h => ⟨h .A, h .B, h .C⟩⟩

/-- The budget law, session by session: claims belong to open sessions, open sessions have a pace, and the
reserve is within the budget of the pace of each session that holds a claim (R12 to R14). -/
theorem State.budgetKept_iff {s : State} :
    s.BudgetKept ↔
      (∀ p, s.claims.holdsClaim p = true → (s.sessionOf p).isOpen = true) ∧
        (∀ p, (s.sessionOf p).isOpen = true → (s.sessionOf p).pace.isSome = true) ∧
        ∀ p n, s.claims.holdsClaim p = true → (s.sessionOf p).pace = some n →
          s.claims.reserve ≤ budget n := by
  have hclaims : (∀ p c, (s.claimOf p c).isSome = true → s.sessionOpen p = true) ↔
      ∀ p, s.claims.holdsClaim p = true → (s.sessionOf p).isOpen = true := by
    simp only [ClaimTable.holdsClaim_iff, Option.isSome_iff_exists, forall_exists_index]
    exact Iff.rfl
  unfold State.BudgetKept
  rw [hclaims]
  refine and_congr_right fun ho => and_congr_right fun hp => ?_
  rw [State.effectiveInterval, withinBudget_intervalOf_iff]
  constructor
  · intro h p n hh hn
    have he := ClaimTable.isEmpty_eq_false_iff.mpr ⟨p, hh⟩
    exact (h he).2 p n (paceOf_eq_some_iff.mpr ⟨ho p hh, hh, hn⟩)
  · intro h he
    obtain ⟨p, hh⟩ := ClaimTable.isEmpty_eq_false_iff.mp he
    obtain ⟨n, hn⟩ := Option.isSome_iff_exists.mp (hp p (ho p hh))
    refine ⟨⟨p, n, paceOf_eq_some_iff.mpr ⟨ho p hh, hh, hn⟩⟩, fun q m hq => ?_⟩
    obtain ⟨-, hh', hm⟩ := paceOf_eq_some_iff.mp hq
    exact h q m hh' hm

/-! ### What keeps the budget law -/

namespace State.BudgetKept

variable {s u : State}

/-- Claims kept or removed, under the same sessions, keep the law: the reserve does not grow (R11) and no
session becomes a holder. -/
theorem of_within (hs : s.BudgetKept) (hc : u.claims.Within s.claims)
    (hss : u.sessions = s.sessions) : u.BudgetKept := by
  obtain ⟨ho, hp, hb⟩ := State.budgetKept_iff.mp hs
  have he : ∀ p, u.sessionOf p = s.sessionOf p := fun p => congrArg (PerPort.get · p) hss
  refine State.budgetKept_iff.mpr ⟨fun p hh => ?_, fun p => ?_, fun p n hh hn => ?_⟩
  · exact he p ▸ ho p (hc.holdsClaim hh)
  · rw [he p]; exact hp p
  · exact hc.reserve_le.trans (hb p n (hc.holdsClaim hh) (he p ▸ hn))

/-- The law reads the claims and the sessions alone. -/
theorem of_eq (hs : s.BudgetKept) (hc : u.claims = s.claims) (hss : u.sessions = s.sessions) :
    u.BudgetKept :=
  hs.of_within (hc ▸ fun _ _ cl h => ⟨cl, h, rfl⟩) hss

theorem setSched (hs : s.BudgetKept) (x : Scheduler) : (s.setSched x).BudgetKept :=
  hs.of_eq rfl rfl

theorem setConv (hs : s.BudgetKept) (x : Converter) : (s.setConv x).BudgetKept :=
  hs.of_eq rfl rfl

theorem setDemand (hs : s.BudgetKept) (x : DemandQueue) : (s.setDemand x).BudgetKept :=
  hs.of_eq rfl rfl

theorem setCapture (hs : s.BudgetKept) (x : CaptureBank) : (s.setCapture x).BudgetKept :=
  hs.of_eq rfl rfl

theorem setResults (hs : s.BudgetKept) (p : Port) (x : ResultQueue) : (s.setResults p x).BudgetKept :=
  hs.of_eq rfl rfl

theorem setEvents (hs : s.BudgetKept) (p : Port) (x : EventQueue) : (s.setEvents p x).BudgetKept :=
  hs.of_eq rfl rfl

/-- A session record written keeps the law if it is open and affords the reserve where the session holds a
claim, and has a pace where it is open. -/
theorem setSession (hs : s.BudgetKept) {p : Port} {x : Session}
    (hopen : s.claims.holdsClaim p = true → x.isOpen = true)
    (hpace : x.isOpen = true → x.pace.isSome = true)
    (hbudget : s.claims.holdsClaim p = true → ∀ n, x.pace = some n → s.claims.reserve ≤ budget n) :
    (s.setSession p x).BudgetKept := by
  obtain ⟨ho, hp, hb⟩ := State.budgetKept_iff.mp hs
  refine State.budgetKept_iff.mpr ⟨fun q => ?_, fun q => ?_, fun q n => ?_⟩ <;>
    by_cases hq : q = p
  · subst hq; simpa using hopen
  · simpa [State.setSession_sessionOf_ne, hq] using ho q
  · subst hq; simpa using hpace
  · simpa [State.setSession_sessionOf_ne, hq] using hp q
  · subst hq; simpa using fun hh => hbudget hh n
  · simpa [State.setSession_sessionOf_ne, hq] using hb q n

/-- A session record written with the same state and pace keeps the law. -/
theorem setSession_same (hs : s.BudgetKept) {p : Port} {x : Session}
    (hopen : x.isOpen = (s.sessionOf p).isOpen) (hpace : x.pace = (s.sessionOf p).pace) :
    (s.setSession p x).BudgetKept := by
  obtain ⟨ho, hp, hb⟩ := State.budgetKept_iff.mp hs
  exact hs.setSession (fun hh => hopen ▸ ho p hh) (fun hx => hpace ▸ hp p (hopen ▸ hx))
    fun hh n hn => hb p n hh (hpace ▸ hn)

/-- A session that is not open holds no claim. -/
theorem holdsClaim_closed (hs : s.BudgetKept) {p : Port} (h : s.sessionOpen p = false) :
    ¬ s.claims.holdsClaim p = true := fun hh => by
  have := (State.budgetKept_iff.mp hs).1 p hh
  rw [State.sessionOpen, this] at h
  cases h

/-! ### Boundaries, choices and deliveries -/

theorem boundary (hs : s.BudgetKept) (t : Nat) : (s.boundary t).BudgetKept :=
  hs.of_within (ClaimTable.within_of_map (g := fun _ _ => Claim.activate) (fun _ _ _ => rfl)
      (s.boundary_claims t))
    (s.boundary_sessions t)

theorem lastSlotFinished (hs : s.BudgetKept) (t : Nat) : (s.lastSlotFinished t).BudgetKept := by
  unfold State.lastSlotFinished
  split
  · exact hs.setSched _
  · refine BudgetKept.boundary ?_ t
    exact hs.of_eq (s.handEvents_claims _) (s.handEvents_sessions _)
  · exact hs
  · exact hs

theorem skipSlot (hs : s.BudgetKept) (sl : PlanSlot) : (s.skipSlot sl).BudgetKept := by
  refine hs.of_within (ClaimTable.within_of_map (g := fun _ c cl =>
    if c = sl.channel ∧ cl.receives c s.roundNow then cl.raiseGap else cl) (fun p c cl => ?_)
    fun p c => ClaimTable.get_mapCells _ _ p c) rfl
  split <;> rfl

theorem choose (hs : s.BudgetKept) (t : Nat) : (s.choose t).BudgetKept :=
  s.choose_keeps t (fun _ sl hu _ _ => hu.skipSlot sl) (fun _ hu _ => hu.lastSlotFinished t)
    (fun _ _ hu _ _ _ _ => hu.of_eq rfl rfl) (fun _ _ _ _ hu _ _ => hu.of_eq rfl rfl)
    (fun _ _ hu _ _ => hu.of_eq rfl rfl) hs

theorem chooseIfIdle (hs : s.BudgetKept) (t : Nat) : (s.chooseIfIdle t).BudgetKept :=
  s.chooseIfIdle_keeps t (fun _ => hs.choose t) hs

/-- A delivery changes run-time fields of the receiving claims only (R63). -/
theorem deliverPlan (hs : s.BudgetKept) (w : Work) (slot : Nat) :
    (s.deliverPlan w slot (s.workCode w) (s.workClip w)).BudgetKept := by
  refine hs.of_within (fun p c cl h => ?_) (by rw [State.deliverPlan_frame])
  obtain ⟨-, -, hclaim⟩ := s.deliverPlan_spec w slot
  change State.claimOf _ p c = some cl at h
  rw [hclaim] at h
  split at h
  · rename_i hc
    subst hc
    cases hr : s.receiver p w with
    | none => rw [hr] at h; exact ⟨cl, h, rfl⟩
    | some cl' =>
      rw [hr] at h
      obtain ⟨hg, -⟩ := Option.filter_eq_some_iff.mp hr
      injection h with h
      subst h
      exact ⟨cl', hg, rfl⟩
  · exact ⟨cl, h, rfl⟩

theorem deliverResult (hs : s.BudgetKept) (w : Work) : (s.deliverResult w).BudgetKept := by
  unfold State.deliverResult
  split
  · exact hs.deliverPlan w _
  · unfold State.deliverDemand
    dsimp only
    split <;> exact hs.of_eq rfl rfl
  · rw [State.receiveCaptureValue_frame]
    exact hs.of_eq rfl rfl

theorem finishSlot (hs : s.BudgetKept) (w : Work) : (s.finishSlot w).BudgetKept := by
  unfold State.finishSlot
  split
  · split
    · exact hs.lastSlotFinished _
    · exact hs
  · exact hs
  · exact hs

theorem takeDeferredBoundary (hs : s.BudgetKept) (t : Nat) :
    (s.takeDeferredBoundary t).BudgetKept := by
  unfold State.takeDeferredBoundary
  split
  · exact (hs.setSched _).boundary t
  · exact hs

theorem complete (hs : s.BudgetKept) (w : Work) : (s.complete w).BudgetKept := by
  have h := ((hs.deliverResult w).finishSlot w).takeDeferredBoundary w.finish
  exact (h.setConv _).choose w.finish

theorem tick (hs : s.BudgetKept) (t : Nat) : (s.tick t).BudgetKept := by
  unfold State.tick
  split
  · exact hs.setSched _
  · exact hs.setSched _
  · exact (hs.boundary t).chooseIfIdle t
  · exact hs

/-! ### Captures -/

theorem takeHead (hs : s.BudgetKept) (t : Nat) : (s.takeHead t).BudgetKept := by
  rw [State.takeHead_frame]
  exact hs.setCapture _

theorem freeBank (hs : s.BudgetKept) (t : Nat) : (s.freeBank t).BudgetKept := by
  rw [State.freeBank_frame]
  exact hs.setCapture _

theorem cancel (hs : s.BudgetKept) (p : Port) (t : Nat) : (s.cancel p t).BudgetKept := by
  rw [State.cancel_frame]
  exact hs.setCapture _

theorem takeEdge (hs : s.BudgetKept) (l : TriggerLine) (e : Edge) (t : Nat) :
    (s.takeEdge l e t).BudgetKept := by
  unfold State.takeEdge
  split
  · exact hs
  · split
    · exact (hs.setCapture _).chooseIfIdle t
    · exact hs
  · split
    · exact hs.setCapture _
    · exact hs

theorem timeoutCapture (hs : s.BudgetKept) (cp : Capture) (t : Nat) :
    (s.timeoutCapture cp t).BudgetKept := by
  unfold State.timeoutCapture
  exact (((hs.setCapture _).setEvents _ _).freeBank t).chooseIfIdle t

/-! ### Sessions and claims -/

/-- The blocks torn down keep the law: the claims of the session leave with it (R23, R134). -/
theorem teardownBlocks (hs : s.BudgetKept) (p : Port) : (s.teardownBlocks p).BudgetKept := by
  have hremoved : (s.setClaims (s.claims.removeSession p)).BudgetKept :=
    hs.of_within (s.claims.removeSession_within p) rfl
  have hnone : ¬ (s.claims.removeSession p).holdsClaim p = true := by
    simp [ClaimTable.holdsClaim_iff, ClaimTable.get_removeSession]
  have hclosed :
      ((s.setClaims (s.claims.removeSession p)).setSession p (s.sessionOf p).close).BudgetKept :=
    hremoved.setSession (fun hh => absurd hh hnone) (fun h => by cases h)
      fun hh => absurd hh hnone
  exact hclosed.of_eq rfl rfl

theorem teardown (hs : s.BudgetKept) (p : Port) (t : Nat) : (s.teardown p t).BudgetKept := by
  have h : ((s.teardownBlocks p).teardownCapture p t).BudgetKept := by
    rw [State.teardownCapture_frame]
    exact (hs.teardownBlocks p).setCapture _
  exact h.chooseIfIdle t

/-- A session opens with a pace and without claims (R129). -/
theorem opening (hs : s.BudgetKept) {p : Port} (rq : OpenRequest) (t : Nat)
    (h : s.sessionOpen p = false) :
    (s.setSession p ((s.sessionOf p).opened rq t)).BudgetKept :=
  have hnone := hs.holdsClaim_closed h
  hs.setSession (fun hh => absurd hh hnone) (fun _ => rfl) fun hh => absurd hh hnone

/-- A pace that R20 takes for a holder either is not below the interval or affords the reserve itself. -/
theorem writePace (hs : s.BudgetKept) {p : Port} {pace : Nat}
    (h : s.paceOverload p pace = false) : (s.writePace p pace).BudgetKept := by
  obtain ⟨ho, -, hb⟩ := State.budgetKept_iff.mp hs
  refine hs.setSession (ho p) (fun _ => rfl) fun hh n hn => ?_
  obtain rfl : pace = n := Option.some.inj hn
  have he := ClaimTable.isEmpty_eq_false_iff.mpr ⟨p, hh⟩
  obtain ⟨hi, hr⟩ := withinBudget_iff.mp (hs.2.2 he)
  obtain ⟨i, hi⟩ := Option.ne_none_iff_exists'.mp hi
  have hle := hr i hi
  simp only [State.paceOverload, hh, hi, Bool.true_and, Bool.and_eq_false_iff, decide_eq_false_iff_not,
    not_lt] at h
  rcases h with hge | hafford
  · exact hle.trans (Nat.mul_le_mul_right _ hge)
  · exact hafford

/-- A candidate within the budget of the candidate interval, asked by an open session, keeps the law
(R16, R17). -/
theorem candidate (hs : s.BudgetKept) {p : Port} {rq : ClaimRequest} (hopen : s.sessionOpen p = true)
    (hj : s.judgeClaim p rq = none) : (s.setClaims (s.claims.candidate p rq)).BudgetKept := by
  obtain ⟨ho, hp, -⟩ := hs
  refine ⟨fun q c hq => ?_, hp, fun _ => ?_⟩
  · simp only [State.setClaims_claimOf, ClaimTable.candidate, ClaimTable.get_set] at hq
    split at hq
    · rename_i hqp
      exact hqp.1 ▸ hopen
    · exact ho q c hq
  · unfold State.judgeClaim at hj
    split_ifs at hj with hrange hpriority hbudget
    have hw : withinBudget (s.claims.candidate p rq).reserve (s.candidateInterval p rq) = true := by
      simpa using hbudget
    exact hw

theorem takeClaim (hs : s.BudgetKept) {p : Port} {rq : ClaimRequest} (t : Nat)
    (hopen : s.sessionOpen p = true) (hj : s.judgeClaim p rq = none) :
    (s.takeClaim p rq t).BudgetKept := by
  have hc := hs.candidate hopen hj
  unfold State.takeClaim
  dsimp only
  split
  · refine BudgetKept.chooseIfIdle ?_ t
    unfold State.tableTurnsNonEmpty
    split
    · split
      · exact hc
      · split
        · exact hc.boundary t
        · exact hc.setSched _
    · exact hc
    · exact hc
    · exact hc
  · exact hc

theorem resetPart (s : State) (epochs : PerPort Epoch) : (s.resetPart epochs).BudgetKept := by
  refine State.budgetKept_iff.mpr ⟨fun p hh => ?_, fun p h => ?_, fun p n hh => ?_⟩
  · exact absurd hh (by simp [State.resetPart, ClaimTable.holdsClaim_iff])
  · simp [State.resetPart, State.sessionOf, Session.reset] at h
  · exact absurd hh (by simp [State.resetPart, ClaimTable.holdsClaim_iff])

/-- Every operation the commands are made of keeps the budget law. -/
theorem keptByOperations : KeptByOperations State.BudgetKept where
  port _ _ _ hs := hs.of_eq rfl rfl
  lease s p t hs := by
    refine hs.setSession_same ?_ ?_ <;> unfold Session.restartLease <;> split <;> rfl
  opening _ _ rq t hs h _ := (hs.opening rq t h).setResults _ _
  teardown _ p t hs := hs.teardown p t
  clearFlags _ _ hs _ := hs.setSession_same rfl rfl
  expired _ _ hs _ := hs.setSession_same rfl rfl
  pace _ _ _ hs _ h := hs.writePace h
  claim _ _ _ t hs hopen _ hj := hs.takeClaim t hopen hj
  release s p c hs := hs.of_within (s.claims.set_none_within p c) rfl
  readNow _ _ _ t hs _ _ := (hs.setDemand _).chooseIfIdle t
  capture _ _ _ t hs _ _ _ := ((hs.setCapture _).takeHead t).chooseIfIdle t
  cancel _ p _ t hs _ := (hs.cancel p t).chooseIfIdle t
  edge _ l e t hs := hs.takeEdge l e t
  timeout _ cp t hs _ := hs.timeoutCapture cp t
  tick _ t hs _ := hs.tick t
  complete _ w hs _ := hs.complete w
  fewerRecords _ _ _ hs := hs.setResults _ _
  resume _ _ hs := hs.setResults _ _
  watermark _ _ _ hs _ _ := hs.setResults _ _
  fewerEvents _ _ _ hs := hs.setEvents _ _
  reset s epochs _ := resetPart s epochs
  rstn _ _ hs := hs.of_eq rfl rfl
  queue _ _ hs := hs.of_eq rfl rfl

/-- Under the law a table that is not empty has an interval, and its load is within the budget (R14). -/
theorem load_le (hs : s.BudgetKept) (h : s.claims.isEmpty = false) :
    ∃ i, s.effectiveInterval = some i ∧ s.claims.load ≤ budget i := by
  obtain ⟨hi, hr⟩ := withinBudget_iff.mp (hs.2.2 h)
  obtain ⟨i, hi⟩ := Option.ne_none_iff_exists'.mp hi
  exact ⟨i, hi, s.claims.load_le_reserve.trans (hr i hi)⟩

end State.BudgetKept

end Sys2Proof.Machine
end

section
/-! The statements of the Claim Table's code spaces and of its budget. -/

-- In sequence, as the section above.
set_option Elab.async false

namespace Sys2Proof

open Machine

/-- A code is in the code space exactly if it lies from its lowest code to its highest (R1). -/
theorem Machine.inCodeSpace_iff {r : Range} {res : Resolution} {x : Int} :
    inCodeSpace r res x = true ↔ codeMin r res ≤ x ∧ x ≤ codeMax r res := by
  simp [inCodeSpace]

/-- Settles O13: the law is kept by every operation a command is made of, hence by every step, and under it
the load, which the reserve bounds, is within the budget. -/
theorem budgetKept : Obligations.BudgetKept := by
  intro s s' hs hstep
  have hs' := step_keeps_of State.BudgetKept.keptByOperations hs hstep
  exact ⟨hs', hs'.load_le⟩

/-- Settles O5, by the range: LOW and FULL have one code space, BIPOLAR the other. -/
theorem codeSpaceOfRanges : Obligations.CodeSpaceOfRanges := by
  refine ⟨fun r res x hr => ?_, fun res x => inCodeSpace_iff, rfl, rfl, rfl⟩
  cases r with
  | low => exact inCodeSpace_iff
  | full => exact inCodeSpace_iff
  | bipolar => exact absurd rfl hr

end Sys2Proof
end

section
/-! SUPPORT. The change events of a boundary session by session: which of the events it hands are a given
session's own, in order (R34). -/

-- In sequence, as the sections above.
set_option Elab.async false

namespace Sys2Proof.Machine

/-! ### A session's own events in a run of events -/

/-- The events of a run that are handed to one session, in the run's order. -/
def eventsTo (p : Port) (l : List (Port × Event)) : List Event :=
  l.filterMap fun x => if x.1 = p then some x.2 else none

/-- A session's event queue takes exactly the session's own events (R120). -/
theorem State.handEvents_eventsOf_eventsTo (s : State) (l : List (Port × Event)) (p : Port) :
    (s.handEvents l).eventsOf p = (eventsTo p l).foldl EventQueue.append (s.eventsOf p) :=
  s.handEvents_eventsOf l p

@[simp] theorem eventsTo_nil (p : Port) : eventsTo p [] = [] := rfl

theorem eventsTo_append (p : Port) (l m : List (Port × Event)) :
    eventsTo p (l ++ m) = eventsTo p l ++ eventsTo p m :=
  List.filterMap_append

theorem eventsTo_flatMap {α : Type} (p : Port) (l : List α) (g : α → List (Port × Event)) :
    eventsTo p (l.flatMap g) = l.flatMap fun a => eventsTo p (g a) :=
  List.filterMap_flatMap

/-- One event handed to the sessions a test picks reaches a session once if it is picked, else not. -/
theorem eventsTo_broadcast (p : Port) (pick : Port → Bool) (e : Event) :
    eventsTo p ((allPorts.filter pick).map fun q => (q, e)) = if pick p = true then [e] else [] := by
  have own : eventsTo p ((allPorts.filter pick).map fun q => (q, e)) =
      allPorts.filterMap fun q => if q = p then (if pick p = true then some e else none) else none := by
    simp only [eventsTo, List.filterMap_map, List.filterMap_filter]
    refine List.filterMap_congr fun q _ => ?_
    by_cases hq : q = p
    · subst hq; simp
    · simp [hq]
  rw [own]
  by_cases hp : pick p = true
  · simp only [if_pos hp]
    cases p <;> rfl
  · simp [hp]

/-! ### PROFILE_CHANGED -/

/-- The entry a snapshot writes for a channel: its current profile and its holders (R33). -/
theorem State.snapshot_get (s : State) (c : Channel) :
    s.claims.snapshot.get c = (s.profile c).map fun f => ⟨f, s.claims.holders c⟩ :=
  PerChannel.get_tabulate _ _

theorem State.holders_get (s : State) (p : Port) (c : Channel) :
    (s.claims.holders c).get p = (s.claimOf p c).isSome :=
  PerPort.get_tabulate _ _

/-- A boundary hands a session at most one PROFILE_CHANGED event about a channel (R34). -/
theorem State.eventsTo_profileChangesOf (s : State) (p : Port) (c : Channel) :
    eventsTo p (profileChangesOf s.sched.plan s.claims.snapshot c) =
      (s.profileChangeFor p c).toList := by
  unfold profileChangesOf State.profileChangeFor
  rw [s.snapshot_get c]
  cases s.sched.plan.get c with
  | none => rfl
  | some e =>
    cases s.profile c with
    | none => rfl
    | some f =>
      by_cases hf : e.profile = f
      · simp [hf]
      · simp only [Option.map_some, if_neg hf, eventsTo_broadcast, s.holders_get]
        by_cases hp : e.holders.get p = true ∧ (s.claimOf p c).isSome = true
        · simp [hf, hp, profileChangedEvent]
        · simp [hf, hp]

/-- The PROFILE_CHANGED events of a boundary reach a session channels ascending (R34). -/
theorem State.eventsTo_profileChanges (s : State) (p : Port) :
    eventsTo p (profileChanges s.sched.plan s.claims.snapshot) =
      allChannels.filterMap (s.profileChangeFor p) := by
  rw [profileChanges, eventsTo_flatMap, List.filterMap_eq_flatMap_toList]
  simp only [s.eventsTo_profileChangesOf]

/-! ### PACE_CHANGED -/

theorem State.eventsTo_paceChanges (s : State) (p : Port) :
    eventsTo p (paceChanges s.sched.snapshotInterval s.effectiveInterval s.claims.claimHolders) =
      s.paceChangeFor p := by
  unfold paceChanges State.paceChangeFor
  cases s.sched.snapshotInterval with
  | none => rfl
  | some x =>
    cases s.effectiveInterval with
    | none => rfl
    | some y =>
      by_cases hxy : x = y
      · simp [hxy]
      · simp [hxy, ClaimTable.claimHolders, eventsTo_broadcast]

/-! ### The whole boundary -/

/-- Of a boundary's events a session is handed its own change events, PROFILE_CHANGED first (R34). -/
theorem State.eventsTo_boundaryEvents (s : State) (p : Port) :
    eventsTo p s.boundaryEvents = s.changesFor p := by
  rw [State.boundaryEvents, eventsTo_append, s.eventsTo_profileChanges, s.eventsTo_paceChanges,
    State.changesFor]

/-- Over an empty Claim Table no session has a change event: there is no holder (R34). -/
theorem State.changesFor_empty {s : State} (h : s.claims.isEmpty = true) (p : Port) :
    s.changesFor p = [] := by
  have hnone := ClaimTable.isEmpty_iff.mp h
  have hprofile : ∀ c, s.profileChangeFor p c = none := fun c => by
    have hc : s.profile c = none := ClaimTable.profile_none.mpr fun q => hnone q c
    unfold State.profileChangeFor
    rw [hc]
    cases s.sched.plan.get c <;> rfl
  have hholds : s.claims.holdsClaim p = false := by simp [ClaimTable.holdsClaim, hnone]
  have hpace : s.paceChangeFor p = [] := by
    unfold State.paceChangeFor
    split <;> simp [hholds]
  rw [State.changesFor, hpace, List.append_nil, List.filterMap_eq_nil_iff]
  exact fun c _ => hprofile c

theorem State.boundary_eventsOf (s : State) (t : Nat) (p : Port) :
    (s.boundary t).eventsOf p = (s.changesFor p).foldl EventQueue.append (s.eventsOf p) := by
  cases h : s.claims.isEmpty with
  | true => rw [State.boundary_empty t h, State.changesFor_empty h]; rfl
  | false =>
    rw [State.boundary_nonempty t h, ← s.eventsTo_boundaryEvents,
      ← State.handEvents_eventsOf_eventsTo]
    rfl

end Sys2Proof.Machine
end

section
/-! The statement of a boundary's change events. -/

-- In sequence, as the sections above.
set_option Elab.async false

namespace Sys2Proof

/-- Settles O19: over claims a boundary hands the events of the old plan compared with the new one, of which
each session takes its own; over an empty table it hands none, and no session has any. -/
theorem boundaryQueuesItsChangeEvents : Obligations.BoundaryQueuesItsChangeEvents := by
  intro s t p
  exact s.boundary_eventsOf t p

end Sys2Proof
end

section
/-! SUPPORT. The rules of the Watch logic's classification: the two bound tests, the three answers, and what
R15 demands of a window's bounds (R15, R116). -/

namespace Sys2Proof.Machine

/-! ### The bound tests -/

theorem belowLower_iff {w : Window} {v : Int} :
    belowLower w v = true ↔ ∃ b, w.lower = some b ∧ v < b := by
  unfold belowLower
  cases w.lower <;> simp

theorem aboveUpper_iff {w : Window} {v : Int} :
    aboveUpper w v = true ↔ ∃ b, w.upper = some b ∧ b < v := by
  unfold aboveUpper
  cases w.upper <;> simp

/-- A value equal to the lower bound is not below it (R116). -/
theorem belowLower_eq_false_iff {w : Window} {v : Int} :
    belowLower w v = false ↔ ∀ b, w.lower = some b → b ≤ v := by
  simp [← Bool.not_eq_true, belowLower_iff]

/-- A value equal to the upper bound is not above it (R116). -/
theorem aboveUpper_eq_false_iff {w : Window} {v : Int} :
    aboveUpper w v = false ↔ ∀ b, w.upper = some b → v ≤ b := by
  simp [← Bool.not_eq_true, aboveUpper_iff]

/-! ### The three answers, for any window -/

theorem classify_below_iff {w : Window} {v : Int} :
    classify w v = .below ↔ belowLower w v = true := by
  unfold classify
  cases belowLower w v <;> cases aboveUpper w v <;> simp

theorem classify_above_iff {w : Window} {v : Int} :
    classify w v = .above ↔ belowLower w v = false ∧ aboveUpper w v = true := by
  unfold classify
  cases belowLower w v <;> cases aboveUpper w v <;> simp

theorem classify_inside_iff {w : Window} {v : Int} :
    classify w v = .inside ↔ belowLower w v = false ∧ aboveUpper w v = false := by
  unfold classify
  cases belowLower w v <;> cases aboveUpper w v <;> simp

/-! ### The bounds of a window R15 accepts -/

theorem boundInSpace_iff {r : Range} {res : Resolution} {bound : Option Int} :
    boundInSpace r res bound = true ↔ ∀ b, bound = some b → inCodeSpace r res b = true :=
  Option.all_eq_true _ _

theorem boundsOrdered_iff {lower upper : Option Int} :
    boundsOrdered lower upper = true ↔ ∀ a b, lower = some a → upper = some b → a ≤ b := by
  unfold boundsOrdered
  cases lower <;> cases upper <;> simp

theorem Window.valid_iff {w : Window} {r : Range} {res : Resolution} :
    w.valid r res = true ↔
      (w.lower.isSome = true ∨ w.upper.isSome = true) ∧
        (∀ b, w.lower = some b → inCodeSpace r res b = true) ∧
        (∀ b, w.upper = some b → inCodeSpace r res b = true) ∧
        (∀ a b, w.lower = some a → w.upper = some b → a ≤ b) ∧ 1 ≤ w.confirm ∧ w.confirm ≤ 4 := by
  simp only [Window.valid, Bool.and_eq_true, Bool.or_eq_true, decide_eq_true_eq, boundInSpace_iff,
    boundsOrdered_iff, and_assoc]

/-- No value is on both sides of a window whose bounds are in order (R116). -/
theorem belowLower_eq_false_of_aboveUpper {w : Window} {v : Int}
    (hordered : ∀ a b, w.lower = some a → w.upper = some b → a ≤ b)
    (habove : aboveUpper w v = true) : belowLower w v = false := by
  obtain ⟨b, hupper, hbv⟩ := aboveUpper_iff.mp habove
  rw [belowLower_eq_false_iff]
  intro a hlower
  calc a ≤ b := hordered a b hlower hupper
    _ ≤ v := hbv.le

end Sys2Proof.Machine
end

section
/-! The statement of the classification of a value. -/

namespace Sys2Proof

open Machine

/-- Settles O45, by the two bound tests. The lower bound is tested first, and only the answer ABOVE needs the
bounds in order: a value above the upper bound is then not below the lower one. -/
theorem windowClassification : Obligations.WindowClassification := by
  intro w v
  refine ⟨classify_below_iff.trans belowLower_iff, fun r res hvalid => ?_⟩
  obtain ⟨-, hlower, hupper, hordered, -, -⟩ := Window.valid_iff.mp hvalid
  have habove : classify w v = .above ↔ aboveUpper w v = true :=
    classify_above_iff.trans (and_iff_right_of_imp (belowLower_eq_false_of_aboveUpper hordered))
  have hinside : classify w v = .inside ↔
      (∀ b, w.lower = some b → b ≤ v) ∧ ∀ b, w.upper = some b → v ≤ b :=
    classify_inside_iff.trans (and_congr belowLower_eq_false_iff aboveUpper_eq_false_iff)
  exact ⟨habove.trans aboveUpper_iff, hinside, hlower, hupper⟩

end Sys2Proof
end

section
/-! SUPPORT. What a property of states must survive to survive every command: the commands' operations cut into
the parts they are made of. -/

-- In sequence, as the sections above.
set_option Elab.async false

namespace Sys2Proof.Machine

/-! ### A completion with its work released first

The end of a round and the deferred boundary do not depend on the Converter, so a completion may release its
work record as soon as the result is delivered (R58). -/

theorem State.lastSlotFinished_setConv (s : State) (x : Converter) (t : Nat) :
    (s.setConv x).lastSlotFinished t = (s.lastSlotFinished t).setConv x := by
  unfold State.lastSlotFinished
  simp only [State.setConv_sched]
  split
  · rfl
  · have hslip : (s.setConv x).slipEvents = s.slipEvents := rfl
    rw [hslip, State.handEvents_setConv, ← State.boundary_setConv]
    rfl
  · rfl
  · rfl

theorem State.finishSlot_setConv (s : State) (x : Converter) (w : Work) :
    (s.setConv x).finishSlot w = (s.finishSlot w).setConv x := by
  unfold State.finishSlot
  split
  · rename_i slot _
    by_cases h : slot + 1 = s.sched.slots.length
    · simp only [State.setConv_sched, h, if_true, s.lastSlotFinished_setConv]
    · simp only [State.setConv_sched, h, if_false]
  · rfl
  · rfl

theorem State.takeDeferredBoundary_setConv (s : State) (x : Converter) (t : Nat) :
    (s.setConv x).takeDeferredBoundary t = (s.takeDeferredBoundary t).setConv x := by
  cases h : s.sched.startPending with
  | true =>
    rw [State.takeDeferredBoundary_pending t h, State.takeDeferredBoundary_pending (s := s.setConv x) t h,
      ← State.boundary_setConv]
    rfl
  | false =>
    rw [State.takeDeferredBoundary_none t h, State.takeDeferredBoundary_none (s := s.setConv x) t h]

theorem State.complete_eq (s : State) (w : Work) :
    s.complete w =
      ((((s.deliverResult w).releaseWork w).finishSlot w).takeDeferredBoundary w.finish).choose
        w.finish := by
  unfold State.complete State.releaseWork
  rw [State.finishSlot_setConv, State.takeDeferredBoundary_setConv]

/-! ### The parts -/

/-- What a property of states must survive at the Capture Bank: its operations up to the choice that follows
them, and the blocks of a teardown with the cancel of its capture. -/
structure KeptByBank (P : State → Prop) : Prop where
  capture : ∀ s p rq t, P s → s.sessionOpen p = true → (∀ tag, (rq.entry p tag).Lawful) →
    s.judgeCapture p rq = none → P ((s.queueCapture (rq.entry p s.capture.nextTag)).takeHead t)
  cancel : ∀ s p tag t, P s → s.capture.holds p tag = true → P (s.cancel p t)
  sample : ∀ s cp timer t, P s → s.capture.bank = .armed cp timer → P (s.sample cp t)
  extraEdge : ∀ s, P s → P s.countExtraEdge
  armTimeout : ∀ s cp t, P s → s.capture.bank = .armed cp t →
    P ((s.setCapture
        { s.capture.without cp.session with
          lastFinished := s.capture.lastFinished.set cp.session (some cp.tag) }).freeBank t)
  torn : ∀ s p t, P s → P ((s.teardownBlocks p).teardownCapture p t)

/-- A property that does not read the Capture Bank is kept by the bank's operations. -/
theorem KeptByBank.of_setCapture {P : State → Prop} (hcapture : ∀ s x, P s → P (s.setCapture x))
    (hblocks : ∀ s p, P s → P (s.teardownBlocks p)) : KeptByBank P where
  capture s p rq t hs _ _ _ := by rw [State.takeHead_frame]; exact hcapture _ _ (hcapture _ _ hs)
  cancel s p tag t hs _ := by rw [State.cancel_frame]; exact hcapture _ _ hs
  sample s cp timer t hs _ := hcapture _ _ hs
  extraEdge s hs := hcapture _ _ hs
  armTimeout s cp t hs _ := by rw [State.freeBank_frame]; exact hcapture _ _ (hcapture _ _ hs)
  torn s p t hs := by rw [State.teardownCapture_frame]; exact hcapture _ _ (hblocks s p hs)

/-- What a property of states must survive at the Claim Table outside boundaries and deliveries. -/
structure KeptByClaims (P : State → Prop) : Prop where
  skip : ∀ s c, P s → P (s.setClaims (s.claims.mapCells (skipCell c s.roundNow)))
  candidate : ∀ s p rq, P s → s.sessionOpen p = true → rq.terms.valid = true →
    s.judgeClaim p rq = none → P (s.setClaims (s.claims.candidate p rq))
  release : ∀ s p c, P s → P (s.setClaims (s.claims.set p c none))

/-- A property that does not read the Claim Table is kept by its operations. -/
theorem KeptByClaims.of_setClaims {P : State → Prop} (hclaims : ∀ s x, P s → P (s.setClaims x)) :
    KeptByClaims P where
  skip _ _ hs := hclaims _ _ hs
  candidate _ _ _ hs _ _ _ := hclaims _ _ hs
  release _ _ _ hs := hclaims _ _ hs

/-- The Scheduler written outside boundaries: the plan, the slot list and the interval stay, and so does STOPPED;
a round ends only with nothing in flight, and a running timer runs on. -/
structure State.RoundKept (s : State) (x : Scheduler) : Prop where
  plan : x.plan = s.sched.plan
  slots : x.slots = s.sched.slots
  snapshotInterval : x.snapshotInterval = s.sched.snapshotInterval
  stopped : x.state = .stopped ↔ s.sched.state = .stopped
  inRound : s.conv.work ≠ none → s.sched.inRound = true → x.inRound = true
  timer : s.sched.snapshotInterval.isSome = true → s.sched.pacingTimer.isSome = true →
    x.pacingTimer.isSome = true

/-- What a property of states must survive: the parts the commands' operations are made of, each on a state
that has the property. A boundary finds no plan slot in flight: the Converter is IDLE, or the round is done.
Outside boundaries the Scheduler is written within its round; outside boundaries and deliveries events go to claim
holders (R29) and to sessions with a last finished capture (R84). A part that writes nothing the property reads
needs no proof: the property after it is the property before it. -/
structure KeptByParts (P : State → Prop) : Prop extends KeptByBank P, KeptByClaims P where
  port : ∀ s p h, P s → P (s.setPort p h) := by intros; assumption
  sched : ∀ s x, P s → s.RoundKept x → P (s.setSched x) := by intros; assumption
  boundary : ∀ s t, P s → s.conv.work = none ∨ s.sched.state = .done → P (s.boundary t)
  event : ∀ s p e, P s → s.claims.holdsClaim p = true ∨ s.capture.lastFinished.get p ≠ none →
    P (s.handEvent p e) := by intros; assumption
  slotWork : ∀ s (sl : PlanSlot) t, P s → s.conv.work = none → s.sched.inRound = true →
    sl ∈ s.sched.slots → P (s.putWork (startWork (.plan sl.index) sl.channel sl.profile.range sl.profile.resolution
      sl.profile.hold t)) := by intros; assumption
  captureWork : ∀ s cp pos it t, P s → s.conv.work = none →
    s.capture.bank.offer = some (cp, pos, it) → P (s.takeCaptureWork cp pos it t) := by
    intros; assumption
  demandWork : ∀ s d t, P s → s.conv.work = none → s.demandOffer = some d → P (s.takeDemand d t) := by
    intros; assumption
  settle : ∀ s w, P s → s.conv.work = some w → P ((s.deliverResult w).releaseWork w)
  lease : ∀ s p t, P s → P (s.setSession p ((s.sessionOf p).restartLease t)) := by intros; assumption
  opening : ∀ s p rq t, P s → s.sessionOpen p = false → rq.watermark ≤ 32 →
    P ((s.setSession p ((s.sessionOf p).opened rq t)).setResults p
      { s.resultsOf p with watermark := watermarkOf rq.watermark }) := by intros; assumption
  clearFlags : ∀ s p, P s → s.sessionOpen p = false →
    P (s.setSession p (s.sessionOf p).clearFlags) := by intros; assumption
  expired : ∀ s p, P s → s.sessionOpen p = false →
    P (s.setSession p (s.sessionOf p).setExpired) := by intros; assumption
  pace : ∀ s p pace, P s → s.sessionOpen p = true → s.paceOverload p pace = false →
    P (s.writePace p pace) := by intros; assumption
  demand : ∀ s p rq, P s → s.sessionOpen p = true → s.judgeReadNow p rq = none →
    P (s.queueDemand (rq.entry p s.freshDemandTag)) := by intros; assumption
  fewerRecords : ∀ s p k, P s →
    P (s.setResults p { s.resultsOf p with records := (s.resultsOf p).records.drop k }) := by
    intros; assumption
  resume : ∀ s p, P s → P (s.setResults p { s.resultsOf p with lapsed := false, lost := 0 }) := by
    intros; assumption
  watermark : ∀ s p n, P s → 1 ≤ n → n ≤ 32 →
    P (s.setResults p { s.resultsOf p with watermark := n }) := by intros; assumption
  fewerEvents : ∀ s p n, P s →
    P (s.setEvents p { events := (s.eventsOf p).events.drop n, lost := false }) := by
    intros; assumption
  reset : ∀ s epochs, P s → P (s.resetPart epochs)
  rstn : ∀ s b, P s → P { s with rstnAsserted := b } := by intros; assumption
  queue : ∀ s q, P s → P (s.setPending q) := by intros; assumption

/-- Handing an event over and freeing the bank do not touch each other's parts. -/
theorem State.freeBank_handEvent (s : State) (p : Port) (e : Event) (t : Nat) :
    (s.handEvent p e).freeBank t = (s.freeBank t).handEvent p e := by
  unfold State.freeBank State.takeHead
  simp only [State.handEvent, State.setEvents_capture, State.setCapture_capture]
  cases s.capture.list with
  | nil => rfl
  | cons cp rest =>
    simp only [State.takeIntoBank]
    cases cp.trigger <;> rfl

/-- ROUND_SLIP goes to the sessions that hold a claim (R29). -/
theorem State.slipEvents_holder {s : State} {x : Port × Event} (h : x ∈ s.slipEvents) :
    s.claims.holdsClaim x.1 = true := by
  obtain ⟨p, hp, rfl⟩ := List.mem_map.mp h
  exact (List.mem_filter.mp hp).2

theorem State.freeBank_lastFinished (s : State) (t : Nat) :
    (s.freeBank t).capture.lastFinished = s.capture.lastFinished := by
  unfold State.freeBank State.takeHead
  simp only [State.setCapture_capture]
  cases s.capture.list with
  | nil => rfl
  | cons cp rest =>
    simp only [State.takeIntoBank]
    cases cp.trigger <;> rfl

namespace KeptByParts

variable {P : State → Prop} (k : KeptByParts P) {s : State}

include k

theorem handEvents (l : List (Port × Event)) (hl : ∀ x ∈ l, s.claims.holdsClaim x.1 = true) (hs : P s) :
    P (s.handEvents l) := by
  induction l generalizing s with
  | nil => exact hs
  | cons x l ih =>
    obtain ⟨hx, hl⟩ := List.forall_mem_cons.mp hl
    exact ih hl (k.event _ _ _ hs (.inl hx))

theorem lastSlotFinished (t : Nat) (hs : P s) (hw : s.conv.work = none) : P (s.lastSlotFinished t) := by
  unfold State.lastSlotFinished
  split
  · rename_i hr
    exact k.sched _ _ hs ⟨rfl, rfl, rfl, by simp [hr], fun h => absurd hw h, fun _ h => h⟩
  · have hslip := k.handEvents s.slipEvents (fun x hx => State.slipEvents_holder hx) hs
    refine k.boundary _ _ (k.sched _ _ hslip ?_) (.inl (by simp [hw]))
    rw [State.handEvents_frame]
    exact ⟨rfl, rfl, rfl, Iff.rfl, fun _ h => h, fun _ h => h⟩
  · exact hs
  · exact hs

theorem choose (t : Nat) (hs : P s) (hw : s.conv.work = none) : P (s.choose t) :=
  s.choose_keeps t
    (fun u sl hu _ _ => k.sched _ _ (k.skip u sl.channel hu)
      ⟨rfl, rfl, rfl, Iff.rfl, fun _ h => h, fun _ h => h⟩)
    (fun _ hu hc => k.lastSlotFinished t hu (by rw [hc, hw]))
    (fun u sl hu hc hr hm _ => k.slotWork _ sl t
      (k.sched u _ hu ⟨rfl, rfl, rfl, Iff.rfl, fun _ h => h, fun _ h => h⟩) (by simp [hc, hw]) hr hm)
    (fun u cp pos it hu hc ho => k.captureWork u cp pos it t hu (by rw [hc, hw]) ho)
    (fun u d hu hc ho => k.demandWork u d t hu (by rw [hc, hw]) ho) hs

theorem chooseIfIdle (t : Nat) (hs : P s) : P (s.chooseIfIdle t) :=
  s.chooseIfIdle_keeps t (k.choose t hs) hs

theorem finishSlot (w : Work) (hs : P s) (hw : s.conv.work = none) : P (s.finishSlot w) := by
  unfold State.finishSlot
  split
  · split
    · exact k.lastSlotFinished _ hs hw
    · exact hs
  · exact hs
  · exact hs

theorem takeDeferredBoundary (t : Nat) (hs : P s) (hw : s.conv.work = none) :
    P (s.takeDeferredBoundary t) := by
  unfold State.takeDeferredBoundary
  split
  · exact k.boundary _ _
      (k.sched _ _ hs ⟨rfl, rfl, rfl, Iff.rfl, fun _ h => h, fun _ h => h⟩) (.inl hw)
  · exact hs

theorem complete {w : Work} (hs : P s) (hw : s.conv.work = some w) : P (s.complete w) := by
  rw [State.complete_eq]
  have hsettled := k.finishSlot w (k.settle s w hs hw) rfl
  have hidle : (((s.deliverResult w).releaseWork w).finishSlot w).conv.work = none := by
    rw [State.finishSlot_frame]
    rfl
  refine k.choose _ (k.takeDeferredBoundary _ hsettled hidle) ?_
  rw [State.takeDeferredBoundary_frame]
  exact hidle

theorem takeEdge (l : TriggerLine) (e : Edge) (t : Nat) (hs : P s) : P (s.takeEdge l e t) := by
  unfold State.takeEdge
  split
  · exact hs
  · rename_i cp timer hb
    split
    · exact k.chooseIfIdle t (k.sample s cp timer t hs hb)
    · exact hs
  · split
    · exact k.extraEdge s hs
    · exact hs

theorem timeoutCapture {cp : Capture} {t : Nat} (hs : P s) (hb : s.capture.bank = .armed cp t) :
    P (s.timeoutCapture cp t) := by
  unfold State.timeoutCapture
  refine k.chooseIfIdle t ?_
  rw [State.freeBank_handEvent]
  refine k.event _ _ _ (k.armTimeout s cp t hs hb) (.inr ?_)
  rw [State.freeBank_lastFinished]
  simp

theorem tick (t : Nat) (hs : P s) : P (s.tick t) := by
  unfold State.tick
  split
  · rename_i hr
    exact k.sched _ _ hs ⟨rfl, rfl, rfl, by simp [hr], fun _ _ => rfl, fun h _ => by
      simpa [Scheduler.reloadTimer] using h⟩
  · exact k.sched _ _ hs ⟨rfl, rfl, rfl, Iff.rfl, fun _ h => h, fun h _ => by
      simpa [Scheduler.reloadTimer] using h⟩
  · rename_i hd
    exact k.chooseIfIdle t (k.boundary s t hs (.inr hd))
  · exact hs

theorem takeClaim {p : Port} {rq : ClaimRequest} (t : Nat) (hs : P s) (hopen : s.sessionOpen p = true)
    (hvalid : rq.terms.valid = true) (hj : s.judgeClaim p rq = none) : P (s.takeClaim p rq t) := by
  have hc := k.candidate s p rq hs hopen hvalid hj
  unfold State.takeClaim
  dsimp only
  split
  · refine k.chooseIfIdle t ?_
    unfold State.tableTurnsNonEmpty
    split
    · split
      · exact hc
      · split
        · rename_i hidle
          exact k.boundary _ t hc (.inl (Option.isNone_iff_eq_none.mp hidle))
        · exact k.sched _ _ hc ⟨rfl, rfl, rfl, Iff.rfl, fun _ h => h, fun _ h => h⟩
    · exact hc
    · exact hc
    · exact hc
  · exact hc

/-- A property kept by the parts is kept by the operations. -/
theorem operations : KeptByOperations P where
  port := k.port
  lease := k.lease
  opening := k.opening
  teardown s p t hs := k.chooseIfIdle t (k.torn s p t hs)
  clearFlags := k.clearFlags
  expired := k.expired
  pace := k.pace
  claim _ _ _ t hs ho hv hj := k.takeClaim t hs ho hv hj
  release := k.release
  readNow s p rq t hs ho hj := k.chooseIfIdle t (k.demand s p rq hs ho hj)
  capture s p rq t hs ho hl hj := k.chooseIfIdle t (k.capture s p rq t hs ho hl hj)
  cancel s p tag t hs hh := k.chooseIfIdle t (k.cancel s p tag t hs hh)
  edge _ l e t hs := k.takeEdge l e t hs
  timeout _ _ _ hs hb := k.timeoutCapture hs hb
  tick _ t hs _ := k.tick t hs
  complete _ _ hs hw := k.complete hs hw
  fewerRecords := k.fewerRecords
  resume := k.resume
  watermark := k.watermark
  fewerEvents := k.fewerEvents
  reset := k.reset
  rstn := k.rstn
  queue := k.queue

end KeptByParts

theorem State.stopScheduler_parts (s : State) :
    s.stopScheduler = (s.setTable s.stopScheduler.table).setSched s.stopScheduler.sched := by
  simp only [State.stopScheduler, State.setTable, State.setSched]

theorem State.takeSnapshot_parts (s : State) (t : Nat) :
    s.takeSnapshot t =
      (((s.handEvents s.boundaryEvents).setClaims s.claims.activateAll).setSched
        (s.takeSnapshot t).sched).setTable (s.takeSnapshot t).table := by
  simp only [State.takeSnapshot, State.setClaims, State.setTable, State.setSched]

/-! ### The boundary and the delivery, as parts see them -/

/-- A boundary is made of events handed over, the claims made ACTIVE, and the Scheduler and the table written
(R32 to R35). -/
theorem State.boundary_keeps {P : State → Prop} {s : State} (t : Nat)
    (hevent : ∀ (u : State) p e, P u → P (u.handEvent p e))
    (hclaims : ∀ u : State, P u → P (u.setClaims u.claims.activateAll))
    (hsched : ∀ (u : State) x, P u → P (u.setSched x)) (htable : ∀ (u : State) x, P u → P (u.setTable x))
    (hs : P s) : P (s.boundary t) := by
  have hevents : ∀ (l : List (Port × Event)) (u : State), P u → P (u.handEvents l) := by
    intro l
    induction l with
    | nil => exact fun u hu => hu
    | cons x l ih => exact fun u hu => ih _ (hevent _ _ _ hu)
  cases h : s.claims.isEmpty with
  | true =>
    rw [State.boundary_empty t h, s.stopScheduler_parts]
    exact hsched _ _ (htable _ _ hs)
  | false =>
    rw [State.boundary_nonempty t h]
    have hh := hclaims _ (hevents s.boundaryEvents s hs)
    rw [State.handEvents_claims] at hh
    rw [s.takeSnapshot_parts]
    exact htable _ _ (hsched _ _ hh)

theorem State.deliverResult_plan {s : State} {w : Work} {slot : Nat} (h : w.kind = .plan slot) :
    s.deliverResult w = s.deliverPlan w slot (s.workCode w) (s.workClip w) := by
  simp only [State.deliverResult, h]

theorem State.deliverResult_demand {s : State} {w : Work} {tag : Tag} {p : Port} {gone : Bool}
    (h : w.kind = .demand tag p gone) :
    s.deliverResult w = s.deliverDemand w tag p gone (s.workCode w) (s.workClip w) := by
  simp only [State.deliverResult, h]

theorem State.deliverResult_capture {s : State} {w : Work} {tag : Tag} {pos : Nat}
    (h : w.kind = .capture tag pos) :
    s.deliverResult w = s.receiveCaptureValue pos (s.workCode w) (s.workClip w) w.finish := by
  simp only [State.deliverResult, h]

theorem State.deliverDemand_frame (s : State) (w : Work) (tag : Tag) (p : Port) (gone : Bool) (code : Int)
    (clip : Bool) :
    s.deliverDemand w tag p gone code clip =
      { s with
        table := s.table.set w.channel (completedEntry code clip w.resolution s.roundNow .demand)
        results := (s.deliverDemand w tag p gone code clip).results } := by
  unfold State.deliverDemand
  cases gone <;> rfl

/-- A claim after the delivery of a plan value is the claim before it, but for the run-time fields that a
receiver's evaluation and record leave (R55, R63, R117). -/
theorem State.deliverPlan_claim {s : State} {w : Work} {slot : Nat} {p : Port} {c : Channel} {cl : Claim}
    (h : (s.deliverPlan w slot (s.workCode w) (s.workClip w)).claimOf p c = some cl) :
    ∃ cl', s.claimOf p c = some cl' ∧ (cl = cl' ∨ cl = s.claimAfter p w cl') := by
  obtain ⟨-, -, hclaim⟩ := s.deliverPlan_spec w slot
  rw [hclaim] at h
  split at h
  · rename_i hc
    subst hc
    cases hr : s.receiver p w with
    | none => rw [hr] at h; exact ⟨cl, h, .inl rfl⟩
    | some cl' =>
      rw [hr] at h
      obtain ⟨hg, -⟩ := Option.filter_eq_some_iff.mp hr
      exact ⟨cl', hg, .inr (Option.some.inj h).symm⟩
  · exact ⟨cl, h, .inl rfl⟩

end Sys2Proof.Machine
end

section
/-! SUPPORT. The laws of single blocks, each kept by the parts the commands are made of: the Claim Table
(R7, R15, R17, R55, R117), the work in flight (R56), the session records (R128) and the queues (R101, R120). -/

-- In sequence, as the sections above.
set_option Elab.async false

namespace Sys2Proof.Machine

/-! ### The Claim Table's law -/

namespace Claim.Lawful

variable {cl : Claim}

/-- A candidate that a claim's evaluation leaves is below the confirm count: it was below before the
classification, and it changes the state where it reaches it (R117). -/
theorem watch_candidate (h : cl.Lawful) (v : Int) {k : Candidate} (hk : (cl.watch v).candidate = some k) :
    ∃ w, cl.terms.window = some w ∧ 1 ≤ k.count ∧ k.count < w.confirm := by
  obtain ⟨hvalid, -, hnone, hcand⟩ := h
  unfold Claim.watch at hk
  cases hw : cl.terms.window with
  | none =>
    rw [hw] at hk
    rw [(hnone hw).2] at hk
    cases hk
  | some w =>
    have hconfirm : 1 ≤ w.confirm := by
      simp only [ClaimTerms.valid, hw, Bool.and_eq_true, Window.valid_iff] at hvalid
      exact hvalid.2.2.2.2.2.1
    refine ⟨w, rfl, ?_⟩
    simp only [hw, watchStep] at hk
    split_ifs at hk with h1 h2 h3
    obtain rfl := Option.some.inj hk
    have hcount : 1 ≤ candidateCount cl.candidate (classify w v) ∧
        candidateCount cl.candidate (classify w v) ≤ w.confirm := by
      unfold candidateCount
      cases hc : cl.candidate with
      | none => exact ⟨le_rfl, hconfirm⟩
      | some k =>
        obtain ⟨w', hw', -, hlt⟩ := hcand k hc
        obtain rfl : w = w' := Option.some.inj (hw.symm.trans hw')
        dsimp only
        split <;> omega
    exact ⟨hcount.1, lt_of_le_of_ne hcount.2 h3⟩

/-- A receiver's run-time fields stay lawful (R55, R117). -/
theorem claimAfter (h : cl.Lawful) (s : State) (p : Port) (w : Work) : (s.claimAfter p w cl).Lawful := by
  refine ⟨h.1, ?_, fun hw => ?_, fun k hk => h.watch_candidate _ hk⟩
  · simp only [State.claimAfter]
    split
    · exact Nat.zero_le _
    · exact h.2.1
  · have hw : cl.terms.window = none := hw
    simp only [State.claimAfter, Claim.watch, hw]
    exact h.2.2.1 hw

theorem raiseGap (h : cl.Lawful) : cl.raiseGap.Lawful :=
  ⟨h.1, Nat.min_le_right _ _, h.2.2⟩

theorem activate (h : cl.Lawful) : cl.activate.Lawful := h

theorem newClaim {t : ClaimTerms} (h : t.valid = true) : t.newClaim.Lawful :=
  ⟨h, Nat.zero_le _, fun _ => ⟨rfl, rfl⟩, fun _ hk => by cases hk⟩

end Claim.Lawful

namespace ClaimTable.Lawful

variable {x y : ClaimTable}

/-- Claims kept with their terms or removed, each lawful in its run-time fields, make a lawful table. -/
theorem of_within (hy : y.Lawful) (hw : x.Within y) (hl : ∀ p c cl, x.get p c = some cl → cl.Lawful) :
    x.Lawful := by
  refine ⟨hl, fun p q c a b ha hb => ?_, ?_⟩
  · obtain ⟨a', ha', hta⟩ := hw p c a ha
    obtain ⟨b', hb', htb⟩ := hw q c b hb
    rw [← hta, ← htb]
    exact hy.2.1 p q c a' b' ha' hb'
  · exact (length_filter_channels_mono fun _ => hw.isPriority).trans hy.2.2

/-- Lawful claims changed one by one in their run-time fields stay lawful. -/
theorem of_map (hy : y.Lawful) {g : Port → Channel → Claim → Claim}
    (hterms : ∀ p c cl, (g p c cl).terms = cl.terms) (hg : ∀ p c cl, cl.Lawful → (g p c cl).Lawful)
    (h : ∀ p c, x.get p c = (y.get p c).map (g p c)) : x.Lawful := by
  refine hy.of_within (ClaimTable.within_of_map hterms h) fun p c cl hx => ?_
  rw [h, Option.map_eq_some_iff] at hx
  obtain ⟨cl', hcl', rfl⟩ := hx
  exact hg p c cl' (hy.1 p c cl' hcl')

theorem activateAll (hy : y.Lawful) : y.activateAll.Lawful :=
  hy.of_map (g := fun _ _ => Claim.activate) (fun _ _ _ => rfl) (fun _ _ _ h => h.activate)
    y.get_activateAll

theorem skip (hy : y.Lawful) (c : Channel) (r : RoundNumber) :
    (y.mapCells (skipCell c r)).Lawful := by
  refine hy.of_map
    (g := fun _ d cl => if d = c ∧ cl.receives d r then cl.raiseGap else cl)
    (fun p d cl => ?_) (fun p d cl h => ?_) fun p d => ClaimTable.get_mapCells _ _ p d
  · split <;> rfl
  · split
    · exact h.raiseGap
    · exact h

/-- A candidate that R17 admits is lawful: one range on its channel, two priority channels at most. -/
theorem candidate {s : State} {p : Port} {rq : ClaimRequest} (hs : s.claims.Lawful)
    (hvalid : rq.terms.valid = true) (hj : s.judgeClaim p rq = none) :
    (s.claims.candidate p rq).Lawful := by
  unfold State.judgeClaim at hj
  split_ifs at hj with hrange hpriority hbudget
  have hsame : s.SameRange p rq := (s.rangeConflict_iff p rq).mp (by simpa using hrange)
  have hget : ∀ q c cl, (s.claims.candidate p rq).get q c = some cl →
      (q = p ∧ c = rq.channel ∧ cl = rq.terms.newClaim) ∨
        (¬(q = p ∧ c = rq.channel) ∧ s.claimOf q c = some cl) := by
    intro q c cl h
    rw [ClaimTable.candidate, ClaimTable.get_set] at h
    split at h
    · rename_i hqc
      exact .inl ⟨hqc.1, hqc.2, (Option.some.inj h).symm⟩
    · rename_i hqc
      exact .inr ⟨hqc, h⟩
  have hnew : ∀ q cl, ¬(q = p ∧ rq.channel = rq.channel) → s.claimOf q rq.channel = some cl →
      cl.terms.range = rq.terms.range := fun q cl hq hc => hsame q cl (fun e => hq ⟨e, rfl⟩) hc
  refine ⟨fun q c cl h => ?_, fun q r c a b ha hb => ?_, not_lt.mp hpriority⟩
  · rcases hget q c cl h with ⟨-, -, rfl⟩ | ⟨-, h⟩
    · exact Claim.Lawful.newClaim hvalid
    · exact hs.1 q c cl h
  · rcases hget q c a ha with ⟨-, rfl, rfl⟩ | ⟨hq, ha⟩ <;>
      rcases hget r _ b hb with ⟨-, hc, rfl⟩ | ⟨hr, hb⟩
    · rfl
    · exact (hnew r b hr hb).symm
    · subst hc; exact hnew q a hq ha
    · exact hs.2.1 q r c a b ha hb

theorem empty : ClaimTable.empty.Lawful := by
  refine ⟨fun p c cl h => ?_, fun p q c a b h => ?_, ?_⟩
  · rw [ClaimTable.get_empty] at h; cases h
  · rw [ClaimTable.get_empty] at h; cases h
  · have hnone : ClaimTable.empty.isPriority = fun _ => false := funext fun c => by
      simp [ClaimTable.isPriority, ClaimTable.profile_none.mpr fun p => ClaimTable.get_empty p c]
    rw [ClaimTable.priorityChannels, hnone]
    decide

theorem deliverResult {s : State} (hs : s.claims.Lawful) (w : Work) :
    (s.deliverResult w).claims.Lawful := by
  cases hk : w.kind with
  | plan slot =>
    rw [State.deliverResult_plan hk]
    refine hs.of_within (fun p c cl h => ?_) fun p c cl h => ?_ <;>
      obtain ⟨cl', hcl', rfl | rfl⟩ := State.deliverPlan_claim h
    · exact ⟨cl, hcl', rfl⟩
    · exact ⟨cl', hcl', rfl⟩
    · exact hs.1 p c cl hcl'
    · exact (hs.1 p c cl' hcl').claimAfter s p w
  | demand tag p gone => rw [State.deliverResult_demand hk, State.deliverDemand_frame]; exact hs
  | capture tag pos => rw [State.deliverResult_capture hk, State.receiveCaptureValue_frame]; exact hs

theorem removeSession {ct : ClaimTable} (hs : ct.Lawful) (p : Port) : (ct.removeSession p).Lawful :=
  hs.of_within (ct.removeSession_within p) fun q c cl h => by
    obtain ⟨hq, h⟩ : ¬q = p ∧ ct.get q c = some cl := by simpa [ClaimTable.get_removeSession] using h
    exact hs.1 q c cl h

theorem keptByParts : KeptByParts fun s => s.claims.Lawful where
  toKeptByBank := .of_setCapture (fun _ _ hs => hs) fun _ p hs => hs.removeSession p
  boundary s t hs _ := State.boundary_keeps (P := fun s => s.claims.Lawful) t (fun _ _ _ hu => hu)
    (fun _ hu => hu.activateAll) (fun _ _ hu => hu) (fun _ _ hu => hu) hs
  skip s c hs := hs.skip c s.roundNow
  settle s w hs _ := hs.deliverResult w
  candidate _ _ _ hs _ hv hj := candidate hs hv hj
  release s p c hs := hs.of_within (s.claims.set_none_within p c) fun q d cl h => by
    obtain ⟨-, h⟩ : ¬(q = p ∧ d = c) ∧ s.claims.get q d = some cl := by
      simpa [ClaimTable.get_set] using h
    exact hs.1 q d cl h
  reset _ _ _ := empty

end ClaimTable.Lawful

/-! ### The work in flight -/

/-- What a teardown leaves of a work record: everything but a demand's mark that its requester is gone
(R59). -/
theorem Work.teardown_eq (w : Work) (p : Port) :
    w.teardown p = { w with kind := (w.teardown p).kind } := by
  unfold Work.teardown
  split
  · split <;> rfl
  · rfl
  · rfl

/-- A teardown makes no capture conversion and ends none. -/
theorem Work.teardown_capture {w : Work} {p : Port} {tag : Tag} {pos : Nat} :
    (w.teardown p).kind = .capture tag pos ↔ w.kind = .capture tag pos := by
  unfold Work.teardown
  split
  · rename_i h
    split <;> simp [h]
  · rfl
  · rfl

namespace State.WorkTimed

variable {s u : State}

/-- The law reads the work in flight alone. -/
theorem of_eq (hs : s.WorkTimed) (h : u.conv.work = s.conv.work) : u.WorkTimed := fun w hw =>
  hs w (h ▸ hw)

theorem of_idle (h : u.conv.work = none) : u.WorkTimed := fun w hw => by
  rw [h] at hw
  cases hw

/-- Work started at an instant ends its cost later (R56). -/
theorem of_start {k : WorkKind} {c : Channel} {r : Range} {res : Resolution} {h : Hold} {t : Nat}
    (hu : u.conv.work = some (startWork k c r res h t))
    (hk : (∃ tag pos, k = .capture tag pos) → h = .hold) : u.WorkTimed := fun w hw => by
  obtain rfl := Option.some.inj (hu.symm.trans hw)
  exact ⟨rfl, hk⟩

theorem teardownBlocks (hs : s.WorkTimed) (p : Port) : (s.teardownBlocks p).WorkTimed := fun w hw => by
  obtain ⟨w', hw', rfl⟩ := Option.map_eq_some_iff.mp hw
  obtain ⟨hfinish, hhold⟩ := hs w' hw'
  simp only [Work.teardown_capture]
  rw [Work.teardown_eq]
  exact ⟨hfinish, hhold⟩

theorem keptByParts : KeptByParts State.WorkTimed where
  toKeptByBank := .of_setCapture (fun _ _ hs => hs) fun _ p hs => hs.teardownBlocks p
  toKeptByClaims := .of_setClaims fun _ _ hs => hs
  boundary s t hs _ := hs.of_eq (by rw [s.boundary_conv t])
  slotWork s sl t _ _ _ _ := of_start rfl (by simp)
  captureWork s cp pos it t _ _ _ := of_start rfl fun _ => rfl
  demandWork s d t _ _ _ := of_start rfl (by simp)
  settle s w _ _ := of_idle rfl
  reset s epochs _ := of_idle rfl

end State.WorkTimed

/-! ### The queues -/

namespace ResultQueue.Bounded

variable {q : ResultQueue}

/-- A record handed over keeps the bounds: it is appended below 32 records, and otherwise LAPSED stands with a
lost count of at least 1 (R103). -/
theorem handRecord (h : q.Bounded) (r : Record) : (q.handRecord r).Bounded := by
  obtain ⟨hlen, hlapsed, hlost, hmark⟩ := h
  unfold ResultQueue.handRecord
  split
  · rename_i hl
    exact ⟨hlen, by simp [hl, maxLost], Nat.min_le_right _ _, hmark⟩
  · split
    · rename_i hlt
      refine ⟨?_, hlapsed, hlost, hmark⟩
      simp only [List.length_append, List.length_singleton]
      exact hlt
    · exact ⟨hlen, by simp, by simp, hmark⟩

end ResultQueue.Bounded

namespace EventQueue.Bounded

variable {q : EventQueue}

/-- An event appended keeps the bounds: a full queue loses its oldest event (R120). -/
theorem append (h : q.Bounded) (e : Event) : (q.append e).Bounded := by
  obtain ⟨hlen, -⟩ := h
  unfold EventQueue.append
  split
  · rename_i hlt
    refine ⟨?_, fun _ => by simp⟩
    simp only [List.length_append, List.length_singleton]
    exact hlt
  · refine ⟨?_, fun _ => by simp⟩
    simp only [List.length_append, List.length_drop, List.length_singleton]
    omega

theorem foldl_append (h : q.Bounded) (l : List Event) : (l.foldl EventQueue.append q).Bounded := by
  induction l generalizing q with
  | nil => exact h
  | cons e l ih => exact ih (h.append e)

end EventQueue.Bounded

/-! ### What a completion hands to the queues -/

/-- What the bank can do with the result of a capture conversion (R89, R90, R92). -/
theorem State.receiveCaptureValue_cases (s : State) (pos : Nat) (code : Int) (clip : Bool) (t : Nat) :
    ((∀ cp cancelled sampled values, s.capture.bank ≠ .holding cp cancelled sampled values) ∧
        s.receiveCaptureValue pos code clip t = s) ∨
      ∃ cp cancelled sampled values, s.capture.bank = .holding cp cancelled sampled values ∧
        ((cancelled = true ∧ s.receiveCaptureValue pos code clip t = s.freeBank t) ∨
          (cancelled = false ∧ (∃ v ∈ values.modify pos fun v => v.finish code clip, v.result = none) ∧
            s.receiveCaptureValue pos code clip t =
              s.setCapture
                { s.capture with
                  bank := .holding cp false sampled (values.modify pos fun v => v.finish code clip) }) ∨
          (cancelled = false ∧ (∀ v ∈ values.modify pos fun v => v.finish code clip, v.result ≠ none) ∧
            s.receiveCaptureValue pos code clip t =
              s.completeCapture cp (values.modify pos fun v => v.finish code clip) t)) := by
  unfold State.receiveCaptureValue
  cases hb : s.capture.bank with
  | free => exact .inl ⟨by simp, rfl⟩
  | armed cp timer => exact .inl ⟨by simp, rfl⟩
  | holding cp cancelled sampled values =>
    refine .inr ⟨cp, cancelled, sampled, values, rfl, ?_⟩
    cases cancelled with
    | true => exact .inl ⟨rfl, rfl⟩
    | false =>
      refine .inr ?_
      by_cases hall : ((values.modify pos fun v => v.finish code clip).all fun v => v.result.isSome) = true
      · refine .inr ⟨rfl, fun v hv => ?_, by simp only [hall, if_true, Bool.false_eq_true, if_false]⟩
        exact Option.isSome_iff_ne_none.mp (List.all_eq_true.mp hall v hv)
      · refine .inl ⟨rfl, ?_, by simp only [hall, Bool.false_eq_true, if_false]⟩
        simpa [List.all_eq_true] using hall

theorem State.completeCapture_results (s : State) (cp : Capture) (values : List ValueSlot) (t : Nat) :
    (s.completeCapture cp values t).results =
      s.results.set cp.session
        ((s.resultsOf cp.session).handRecord
          (captureRecord cp s.roundNow s.capture.extraEdges values)) := by
  unfold State.completeCapture
  dsimp only
  rw [State.freeBank_frame]
  rfl

/-- A completion hands each result queue at most one record: a PLAN or DEMAND record, or the CAPTURE record of
the bank capture with at most a value for each of its items (R64, R73, R90). -/
theorem State.deliverResult_resultsOf (s : State) (w : Work) (q : Port) :
    (s.deliverResult w).resultsOf q = s.resultsOf q ∨
      ∃ r, (s.deliverResult w).resultsOf q = (s.resultsOf q).handRecord r ∧
        (r.size = 9 ∨
          ∃ cp sampled values, s.capture.bank = .holding cp false sampled values ∧
            r.size ≤ 7 + 4 * cp.items.length) := by
  cases hk : w.kind with
  | plan slot =>
    rw [State.deliverResult_plan hk, (s.deliverPlan_spec w slot).1, State.queueAfter]
    split
    · split
      · exact .inr ⟨_, rfl, .inl rfl⟩
      · exact .inl rfl
    · exact .inl rfl
  | demand tag p gone =>
    rw [State.deliverResult_demand hk]
    cases gone with
    | true => exact .inl rfl
    | false =>
      by_cases hq : q = p
      · subst hq
        exact .inr ⟨_, State.setResults_resultsOf_self _ _ _, .inl rfl⟩
      · exact .inl (State.setResults_resultsOf_ne _ _ _ hq)
  | capture tag pos =>
    rw [State.deliverResult_capture hk]
    rcases s.receiveCaptureValue_cases pos (s.workCode w) (s.workClip w) w.finish with
      ⟨-, h⟩ | ⟨cp, cancelled, sampled, values, hb, ⟨-, h⟩ | ⟨-, -, h⟩ | ⟨rfl, -, h⟩⟩ <;> rw [h]
    · exact .inl rfl
    · rw [State.freeBank_frame]; exact .inl rfl
    · exact .inl rfl
    · simp only [State.resultsOf, State.completeCapture_results, PerPort.get_set]
      split
      · rename_i hq
        subst hq
        refine .inr ⟨_, rfl, .inr ⟨cp, sampled, values, hb, ?_⟩⟩
        simp only [captureRecord, Record.size, List.length_zipWith]
        omega
      · exact .inl rfl

/-- A completion hands the event queues WINDOW events alone (R58, R118). -/
theorem State.deliverResult_eventsOf (s : State) (w : Work) (q : Port) :
    ∃ l : List Event, (s.deliverResult w).eventsOf q = l.foldl EventQueue.append (s.eventsOf q) := by
  cases hk : w.kind with
  | plan slot =>
    rw [State.deliverResult_plan hk]
    exact ⟨_, (s.deliverPlan_spec w slot).2.1 q⟩
  | demand tag p gone => rw [State.deliverResult_demand hk, State.deliverDemand_frame]; exact ⟨[], rfl⟩
  | capture tag pos =>
    rw [State.deliverResult_capture hk, State.receiveCaptureValue_frame]; exact ⟨[], rfl⟩

namespace State

variable {s : State}

theorem ResultsBounded.setResults (hs : s.ResultsBounded) {p : Port} {x : ResultQueue} (hx : x.Bounded) :
    (s.setResults p x).ResultsBounded := fun q => by
  rw [State.setResults_resultsOf]
  split
  · exact hx
  · exact hs q

theorem EventsBounded.setEvents (hs : s.EventsBounded) {p : Port} {x : EventQueue} (hx : x.Bounded) :
    (s.setEvents p x).EventsBounded := fun q => by
  rw [State.setEvents_eventsOf]
  split
  · exact hx
  · exact hs q

theorem EventsBounded.setClaims (hs : s.EventsBounded) (x : ClaimTable) : (s.setClaims x).EventsBounded :=
  hs

theorem EventsBounded.handEvent (hs : s.EventsBounded) (p : Port) (e : Event) :
    (s.handEvent p e).EventsBounded :=
  hs.setEvents ((hs p).append e)

theorem ResultsBounded.keptByParts : KeptByParts State.ResultsBounded where
  toKeptByBank := .of_setCapture (fun _ _ hs => hs) fun s p hs =>
    hs.setResults (x := (s.resultsOf p).teardown)
      ⟨Nat.zero_le _, by simp [ResultQueue.teardown], Nat.zero_le _, (hs p).2.2.2⟩
  toKeptByClaims := .of_setClaims fun _ _ hs => hs
  boundary s t hs _ := fun p => by
    rw [State.resultsOf, State.boundary_results]
    exact hs p
  settle s w hs _ := fun p => by
    change ((s.deliverResult w).resultsOf p).Bounded
    rcases s.deliverResult_resultsOf w p with h | ⟨r, h, -⟩ <;> rw [h]
    · exact hs p
    · exact (hs p).handRecord r
  opening s p rq t hs _ hw := by
    obtain ⟨hlen, hlapsed, hlost, -⟩ := hs p
    refine ResultsBounded.setResults (s := s.setSession p _) hs ⟨hlen, hlapsed, hlost, ?_⟩
    show 1 ≤ watermarkOf _ ∧ watermarkOf _ ≤ 32
    unfold watermarkOf
    split <;> omega
  fewerRecords s p k hs := by
    obtain ⟨hlen, hrest⟩ := hs p
    exact hs.setResults ⟨(List.drop_sublist ..).length_le.trans hlen, hrest⟩
  resume s p hs := by
    obtain ⟨hlen, -, -, hmark⟩ := hs p
    exact hs.setResults ⟨hlen, by simp, Nat.zero_le _, hmark⟩
  watermark s p n hs h1 h2 := by
    obtain ⟨hlen, hlapsed, hlost, -⟩ := hs p
    exact hs.setResults ⟨hlen, hlapsed, hlost, h1, h2⟩
  reset s epochs _ := fun p => by
    simp only [State.resetPart, State.resultsOf, PerPort.get_const, ResultQueue.Bounded]
    decide

theorem EventsBounded.keptByParts : KeptByParts State.EventsBounded where
  toKeptByBank := .of_setCapture (fun _ _ hs => hs) fun s p hs =>
    hs.setEvents (x := .reset) ⟨Nat.zero_le _, by simp [EventQueue.reset]⟩
  toKeptByClaims := .of_setClaims fun _ _ hs => hs.setClaims _
  boundary s t hs _ := State.boundary_keeps t (fun _ p e hu => hu.handEvent p e) (fun _ hu => hu.setClaims _)
    (fun _ _ hu => hu) (fun _ _ hu => hu) hs
  event s p e hs _ := hs.handEvent p e
  settle s w hs _ := fun p => by
    change ((s.deliverResult w).eventsOf p).Bounded
    obtain ⟨l, h⟩ := s.deliverResult_eventsOf w p
    rw [h]
    exact (hs p).foldl_append l
  fewerEvents s p n hs := by
    obtain ⟨hlen, -⟩ := hs p
    exact hs.setEvents ⟨(List.drop_sublist ..).length_le.trans hlen, by simp⟩
  reset s epochs _ := fun p => by
    simp only [State.resetPart, State.eventsOf, PerPort.get_const, EventQueue.Bounded]
    decide

end State

end Sys2Proof.Machine
end

section
/-! The statements of the Claim Table's law, of the work in flight and of the queues. -/

-- In sequence, as the sections above.
set_option Elab.async false

namespace Sys2Proof

open Machine

/-- Settles O14, by the parts: only a CLAIM, a skip, a delivery and a boundary write claims that stay. -/
theorem claimsLawful : Obligations.ClaimsLawful := fun _ _ hs hstep =>
  step_keeps_of ClaimTable.Lawful.keptByParts.operations hs hstep

/-- Settles O32, by the parts: work is put in flight by `startWork` alone, and a teardown leaves its times. -/
theorem conversionsTakeTheirCost : Obligations.ConversionsTakeTheirCost := fun _ _ hs hstep =>
  step_keeps_of State.WorkTimed.keptByParts.operations hs hstep

/-- Settles O44, by the parts: what hands a record or an event over keeps the bounds of its queue. -/
theorem queuesBounded : Obligations.QueuesBounded := fun _ _ hr he hstep =>
  ⟨step_keeps_of State.ResultsBounded.keptByParts.operations hr hstep,
    step_keeps_of State.EventsBounded.keptByParts.operations he hstep⟩

end Sys2Proof
end

section
/-! SUPPORT. The Demand Queue: the fresh tag (R69), and its laws kept by the parts (R67, R69). -/

-- In sequence, as the sections above.
set_option Elab.async false

namespace Sys2Proof.Machine

/-! ### The fresh tag -/

/-- The counter's raises stop at the first tag that is free, or when the allowance is used up (R69). -/
theorem freshTag_spec (out : List Tag) (n : Nat) (tag : Tag) :
    ∃ m ≤ n, freshTag out n tag = tag + BitVec.ofNat 8 m ∧
      (∀ j < m, tag + BitVec.ofNat 8 j ∈ out) ∧ (m < n → tag + BitVec.ofNat 8 m ∉ out) := by
  induction n generalizing tag with
  | zero => exact ⟨0, le_rfl, by simp [freshTag], by simp, by simp⟩
  | succ n ih =>
    by_cases h : tag ∈ out
    · obtain ⟨m, hm, htag, hbefore, hat⟩ := ih (tag + 1)
      have hshift : ∀ j : Nat, tag + 1 + BitVec.ofNat 8 j = tag + BitVec.ofNat 8 (j + 1) := fun j => by
        change tag + BitVec.ofNat 8 1 + BitVec.ofNat 8 j = _
        rw [BitVec.add_assoc, ← BitVec.ofNat_add, Nat.add_comm 1 j]
      refine ⟨m + 1, by omega, ?_, fun j hj => ?_, fun hlt => ?_⟩
      · rw [freshTag, if_pos h, htag, hshift]
      · cases j with
        | zero => simpa using h
        | succ j => rw [← hshift]; exact hbefore j (by omega)
      · rw [← hshift]; exact hat (by omega)
    · exact ⟨0, Nat.zero_le _, by simp [freshTag, h], by simp, fun _ => by simpa using h⟩

/-- As many raises as there are outstanding tags are enough: a run of tags longer than the list cannot lie in
it, as long as the tags of the run differ (R69). -/
theorem freshTag_not_mem {out : List Tag} (h : out.length < 256) (tag : Tag) :
    freshTag out out.length tag ∉ out := by
  obtain ⟨m, hm, htag, hbefore, hat⟩ := freshTag_spec out out.length tag
  rw [htag]
  intro hmem
  rcases Nat.lt_or_ge m out.length with hlt | hge
  · exact hat hlt hmem
  · obtain rfl : m = out.length := le_antisymm hm hge
    have hrun : ∀ j ∈ Finset.range (out.length + 1), tag + BitVec.ofNat 8 j ∈ out.toFinset := by
      intro j hj
      rw [List.mem_toFinset]
      rcases Nat.lt_succ_iff_lt_or_eq.mp (Finset.mem_range.mp hj) with hj | rfl
      · exact hbefore j hj
      · exact hmem
    have hinj : Set.InjOn (fun j : Nat => tag + BitVec.ofNat 8 j) (Finset.range (out.length + 1)) := by
      intro i hi j hj hij
      have hi := Finset.mem_range.mp hi
      have hj := Finset.mem_range.mp hj
      have hij : BitVec.ofNat 8 i = BitVec.ofNat 8 j := by simpa using hij
      have := congrArg BitVec.toNat hij
      simp only [BitVec.toNat_ofNat] at this
      omega
    have hcard := Finset.card_le_card_of_injOn _ hrun hinj
    rw [Finset.card_range] at hcard
    have := out.toFinset_card_le
    omega

/-! ### Outstanding tags -/

theorem State.outstandingTags_idle {s : State} (h : s.conv.work = none) :
    s.outstandingTags = s.demand.entries.map (·.tag) := by
  simp [State.outstandingTags, h]

theorem State.outstandingTags_length (s : State) :
    s.outstandingTags.length ≤ s.demand.entries.length + 1 := by
  unfold State.outstandingTags
  cases s.conv.work.bind Work.demandTag <;> simp

theorem Work.demandTag_teardown (w : Work) (p : Port) : (w.teardown p).demandTag = w.demandTag := by
  unfold Work.teardown
  split
  · rename_i h
    split <;> simp [Work.demandTag, h]
  · rfl
  · rfl

/-- The Demand Queue's offer is one of its entries (R71). -/
theorem State.demandOffer_mem {s : State} {d : Demand} (h : s.demandOffer = some d) :
    d ∈ s.demand.entries :=
  List.mem_of_find?_eq_some h

/-- A READ_NOW that passes its checks finds room (R68). -/
theorem State.judgeReadNow_room {s : State} {p : Port} {rq : ReadNowRequest}
    (h : s.judgeReadNow p rq = none) : s.demand.countOf p < 2 ∧ s.demand.entries.length < 6 := by
  unfold State.judgeReadNow at h
  split_ifs at h with hrange hsession hall
  exact ⟨not_le.mp hsession, not_le.mp hall⟩

/-! ### The Demand Queue's limits -/

namespace State.DemandsLimited

variable {s u : State}

/-- Entries removed, and no session closed, keep the limits. -/
theorem of_sublist (hs : s.DemandsLimited) (hd : u.demand.entries.Sublist s.demand.entries)
    (ho : ∀ d ∈ u.demand.entries, s.sessionOpen d.session = true → u.sessionOpen d.session = true) :
    u.DemandsLimited := by
  obtain ⟨hlen, hcount, hopen⟩ := hs
  exact ⟨hd.length_le.trans hlen, fun p => hd.countP_le.trans (hcount p), fun d hm =>
    ho d hm (hopen d (hd.subset hm))⟩

/-- The limits read the queue and the session records alone. -/
theorem of_eq (hs : s.DemandsLimited) (hd : u.demand = s.demand) (hss : u.sessions = s.sessions) :
    u.DemandsLimited := by
  refine hs.of_sublist (by rw [hd]) fun d _ h => ?_
  rw [State.sessionOpen, State.sessionOf, hss]
  exact h

theorem setSession (hs : s.DemandsLimited) {p : Port} {x : Session}
    (hx : s.sessionOpen p = true → x.isOpen = true) : (s.setSession p x).DemandsLimited := by
  refine hs.of_sublist (List.Sublist.refl _) fun d _ h => ?_
  rw [State.sessionOpen, State.setSession_sessionOf]
  split
  · rename_i hd
    exact hx (hd ▸ h)
  · exact h

theorem queueDemand (hs : s.DemandsLimited) {d : Demand} (hopen : s.sessionOpen d.session = true)
    (hcount : s.demand.countOf d.session < 2) (hlen : s.demand.entries.length < 6) :
    (s.queueDemand d).DemandsLimited := by
  obtain ⟨-, hc, ho⟩ := hs
  refine ⟨?_, fun p => ?_, fun e he => ?_⟩
  · simpa [State.queueDemand] using hlen
  · have hp := hc p
    simp only [State.queueDemand, State.setDemand_demand, DemandQueue.countOf, List.countP_append,
      List.countP_singleton] at hp hcount ⊢
    split
    · rename_i hd
      obtain rfl := of_decide_eq_true hd
      omega
    · omega
  · rcases List.mem_append.mp he with he | he
    · exact ho e he
    · obtain rfl := List.mem_singleton.mp he
      exact hopen

theorem teardownBlocks (hs : s.DemandsLimited) (p : Port) : (s.teardownBlocks p).DemandsLimited := by
  refine hs.of_sublist List.filter_sublist fun d hd h => ?_
  have hne : d.session ≠ p := by simpa using (List.mem_filter.mp hd).2
  have : (s.teardownBlocks p).sessionOf d.session = s.sessionOf d.session := PerPort.get_set_ne _ _ hne
  rw [State.sessionOpen, this]
  exact h

theorem keptByParts : KeptByParts State.DemandsLimited where
  toKeptByBank := .of_setCapture (fun _ _ hs => hs) fun _ p hs => hs.teardownBlocks p
  toKeptByClaims := .of_setClaims fun _ _ hs => hs
  boundary s t hs _ := hs.of_eq (s.boundary_demand t) (s.boundary_sessions t)
  demandWork s d t hs _ _ := hs.of_sublist List.erase_sublist fun _ _ h => h
  settle s w hs _ := by
    rw [State.deliverResult_frame]
    exact hs.of_eq rfl rfl
  lease s p t hs := hs.setSession fun h => by
    unfold Session.restartLease
    split <;> exact h
  opening s p rq t hs _ _ := hs.setSession fun _ => rfl
  clearFlags s p hs _ := hs.setSession fun h => h
  expired s p hs _ := hs.setSession fun h => h
  pace s p pace hs _ _ := hs.setSession fun h => h
  demand s p rq hs hopen hj :=
    hs.queueDemand (d := rq.entry p s.freshDemandTag) hopen (State.judgeReadNow_room hj).1
      (State.judgeReadNow_room hj).2
  reset s epochs _ := by
    refine ⟨Nat.zero_le _, fun p => Nat.zero_le _, fun d hd => ?_⟩
    cases hd

end State.DemandsLimited

/-! ### The outstanding tags -/

namespace State.DemandTagsDistinct

variable {s u : State}

/-- Fewer outstanding demands keep distinct tags. -/
theorem of_sublist (hs : s.DemandTagsDistinct) (hd : u.demand.entries.length ≤ s.demand.entries.length)
    (ht : u.outstandingTags.Sublist s.outstandingTags) : u.DemandTagsDistinct :=
  ⟨hd.trans hs.1, hs.2.sublist ht⟩

/-- The law reads the queue and the work in flight alone. -/
theorem of_eq (hs : s.DemandTagsDistinct) (hd : u.demand = s.demand) (hw : u.conv.work = s.conv.work) :
    u.DemandTagsDistinct :=
  hs.of_sublist (by rw [hd]) (by rw [State.outstandingTags, State.outstandingTags, hd, hw])

/-- Work that is no demand adds no tag. -/
theorem putWork (hs : s.DemandTagsDistinct) {w : Work} (hw : w.demandTag = none) :
    (s.putWork w).DemandTagsDistinct := by
  refine hs.of_sublist le_rfl ?_
  simp only [State.outstandingTags, State.putWork, State.setConv_conv, Option.bind_some, hw,
    Option.toList_none, List.nil_append, State.setConv_demand]
  exact List.sublist_append_right _ _

/-- A demand taken from the queue keeps its tag outstanding (R69, R71). -/
theorem takeDemand (hs : s.DemandTagsDistinct) {d : Demand} (t : Nat) (hw : s.conv.work = none)
    (hd : d ∈ s.demand.entries) : (s.takeDemand d t).DemandTagsDistinct := by
  refine ⟨List.erase_sublist.length_le.trans hs.1, ?_⟩
  have hperm : (s.takeDemand d t).outstandingTags.Perm s.outstandingTags := by
    rw [State.outstandingTags_idle hw]
    exact ((List.perm_cons_erase hd).map _).symm
  exact hperm.nodup_iff.mpr hs.2

theorem queueDemand (hs : s.DemandTagsDistinct) {d : Demand} (hlen : s.demand.entries.length < 6)
    (htag : d.tag = s.freshDemandTag) : (s.queueDemand d).DemandTagsDistinct := by
  have hfresh : d.tag ∉ s.outstandingTags := by
    rw [htag]
    exact freshTag_not_mem (by have := s.outstandingTags_length; omega) _
  have htags : (s.queueDemand d).outstandingTags = s.outstandingTags ++ [d.tag] := by
    simp [State.outstandingTags, State.queueDemand]
  refine ⟨by simpa [State.queueDemand] using hlen, ?_⟩
  rw [htags, List.nodup_append_comm, List.singleton_append, List.nodup_cons]
  exact ⟨hfresh, hs.2⟩

theorem teardownBlocks (hs : s.DemandTagsDistinct) (p : Port) :
    (s.teardownBlocks p).DemandTagsDistinct := by
  refine hs.of_sublist (List.length_filter_le _ _) ?_
  have hwork : (s.teardownBlocks p).conv.work.bind Work.demandTag =
      s.conv.work.bind Work.demandTag := by
    simp only [State.teardownBlocks]
    cases s.conv.work with
    | none => rfl
    | some w => exact w.demandTag_teardown p
  unfold State.outstandingTags
  rw [hwork]
  exact (List.Sublist.refl _).append (List.filter_sublist.map _)

theorem keptByParts : KeptByParts State.DemandTagsDistinct where
  toKeptByBank := .of_setCapture (fun _ _ hs => hs) fun _ p hs => hs.teardownBlocks p
  toKeptByClaims := .of_setClaims fun _ _ hs => hs
  boundary s t hs _ := hs.of_eq (s.boundary_demand t) (by rw [s.boundary_conv t])
  slotWork s sl t hs _ _ _ := hs.putWork rfl
  captureWork s cp pos it t hs _ _ := DemandTagsDistinct.putWork (s := s.setCapture _) hs rfl
  demandWork s d t hs hw ho := hs.takeDemand t hw (State.demandOffer_mem ho)
  settle s w hs _ := by
    rw [State.deliverResult_frame]
    exact hs.of_sublist le_rfl (List.sublist_append_right _ _)
  demand s p rq hs _ hj :=
    hs.queueDemand (d := rq.entry p s.freshDemandTag) (State.judgeReadNow_room hj).2 rfl
  reset s epochs _ := ⟨Nat.zero_le _, List.nodup_nil⟩

end State.DemandTagsDistinct

theorem State.mem_outstandingTags {s : State} {tag : Tag} :
    tag ∈ s.outstandingTags ↔
      (∃ w p gone, s.conv.work = some w ∧ w.kind = .demand tag p gone) ∨
        ∃ d ∈ s.demand.entries, d.tag = tag := by
  have htag : ∀ w : Work, w.demandTag = some tag ↔ ∃ p gone, w.kind = .demand tag p gone := fun w => by
    unfold Work.demandTag
    cases w.kind <;> simp
  simp only [State.outstandingTags, List.mem_append, Option.mem_toList, Option.bind_eq_some_iff, htag,
    List.mem_map, exists_and_left]

end Sys2Proof.Machine
end

section
/-! The statement of the Demand Queue's laws. -/

-- In sequence, as the sections above.
set_option Elab.async false

namespace Sys2Proof

open Machine

/-- Settles O34, by the parts: a READ_NOW finds room and a fresh tag, a demand taken keeps its tag in flight,
and everything else only removes demands. -/
theorem demandsLawful : Obligations.DemandsLawful := by
  refine ⟨fun s tag => ⟨State.mem_outstandingTags, fun p => ?_⟩, fun s s' hl ht hstep => ⟨?_, ?_⟩⟩
  · rw [DemandQueue.countOf, List.countP_eq_length_filter]
    rfl
  · exact step_keeps_of State.DemandsLimited.keptByParts.operations hl hstep
  · exact step_keeps_of State.DemandTagsDistinct.keptByParts.operations ht hstep

end Sys2Proof
end

section
/-! SUPPORT. What a command can do to a session record and to a Host Port, said once for all commands
(R129 to R137, R141, R146, R150, R156). -/

-- In sequence, as the sections above.
set_option Elab.async false

namespace Sys2Proof.Machine

/-! ### What the happenings of the shared blocks leave alone -/

/-- The records, the sessions, the ports and the world's own are in `u` as in `s`. -/
structure State.LinkKept (s u : State) : Prop where
  results : u.results = s.results
  sessions : u.sessions = s.sessions
  ports : u.ports = s.ports
  rstnAsserted : u.rstnAsserted = s.rstnAsserted
  analog : u.analog = s.analog
  pending : u.pending = s.pending

namespace State.LinkKept

variable {s u v : State}

theorem refl (s : State) : s.LinkKept s := ⟨rfl, rfl, rfl, rfl, rfl, rfl⟩

theorem trans (h : s.LinkKept u) (k : u.LinkKept v) : s.LinkKept v :=
  ⟨k.results.trans h.results, k.sessions.trans h.sessions, k.ports.trans h.ports,
    k.rstnAsserted.trans h.rstnAsserted, k.analog.trans h.analog, k.pending.trans h.pending⟩

theorem setSched (h : s.LinkKept u) (x : Scheduler) : s.LinkKept (u.setSched x) :=
  h.trans ⟨rfl, rfl, rfl, rfl, rfl, rfl⟩

theorem setCapture (h : s.LinkKept u) (x : CaptureBank) : s.LinkKept (u.setCapture x) :=
  h.trans ⟨rfl, rfl, rfl, rfl, rfl, rfl⟩

theorem boundary (h : s.LinkKept u) (t : Nat) : s.LinkKept (u.boundary t) :=
  h.trans ⟨u.boundary_results t, u.boundary_sessions t, u.boundary_ports t, u.boundary_rstnAsserted t,
    u.boundary_analog t, u.boundary_pending t⟩

theorem chooseIfIdle (h : s.LinkKept u) (t : Nat) : s.LinkKept (u.chooseIfIdle t) :=
  h.trans ⟨u.chooseIfIdle_results t, u.chooseIfIdle_sessions t, u.chooseIfIdle_ports t,
    u.chooseIfIdle_rstnAsserted t, u.chooseIfIdle_analog t, u.chooseIfIdle_pending t⟩

theorem takeHead (h : s.LinkKept u) (t : Nat) : s.LinkKept (u.takeHead t) := by
  rw [State.takeHead_frame]
  exact h.setCapture _

theorem freeBank (h : s.LinkKept u) (t : Nat) : s.LinkKept (u.freeBank t) := by
  rw [State.freeBank_frame]
  exact h.setCapture _

theorem cancel (h : s.LinkKept u) (p : Port) (t : Nat) : s.LinkKept (u.cancel p t) := by
  rw [State.cancel_frame]
  exact h.setCapture _

theorem tick (s : State) (t : Nat) : s.LinkKept (s.tick t) := by
  unfold State.tick
  split
  · exact (refl s).setSched _
  · exact (refl s).setSched _
  · exact ((refl s).boundary t).chooseIfIdle t
  · exact refl s

theorem takeEdge (s : State) (l : TriggerLine) (e : Edge) (t : Nat) : s.LinkKept (s.takeEdge l e t) := by
  unfold State.takeEdge
  split
  · exact refl s
  · split
    · exact ((refl s).setCapture _).chooseIfIdle t
    · exact refl s
  · split
    · exact (refl s).setCapture _
    · exact refl s

theorem timeoutCapture (s : State) (cp : Capture) (t : Nat) : s.LinkKept (s.timeoutCapture cp t) := by
  have hevent : ∀ (u : State) p e, u.LinkKept (u.handEvent p e) := fun u p e =>
    ⟨rfl, rfl, rfl, rfl, rfl, rfl⟩
  exact ((((refl s).setCapture _).trans (hevent _ _ _)).freeBank t).chooseIfIdle t

theorem takeClaim (s : State) (p : Port) (rq : ClaimRequest) (t : Nat) :
    s.LinkKept (s.takeClaim p rq t) := by
  have hc : s.LinkKept (s.setClaims (s.claims.candidate p rq)) := ⟨rfl, rfl, rfl, rfl, rfl, rfl⟩
  unfold State.takeClaim
  dsimp only
  split
  · refine LinkKept.chooseIfIdle ?_ t
    unfold State.tableTurnsNonEmpty
    split
    · split
      · exact hc
      · split
        · exact hc.boundary t
        · exact hc.setSched _
    · exact hc
    · exact hc
    · exact hc
  · exact hc

theorem queueDemand (s : State) (d : Demand) : s.LinkKept (s.queueDemand d) :=
  ⟨rfl, rfl, rfl, rfl, rfl, rfl⟩

theorem queueCapture (s : State) (cp : Capture) : s.LinkKept (s.queueCapture cp) :=
  (refl s).setCapture _

/-! The owners of the requests that change no session, port or result queue. -/

theorem ownClaim (s : State) (p : Port) (t : Nat) (rq : ClaimRequest) :
    s.LinkKept (ownClaim t p s rq).state := by
  unfold Machine.ownClaim
  split
  · exact refl s
  · exact takeClaim s p rq t

theorem ownRelease (s : State) (p : Port) (c : Channel) : s.LinkKept (ownRelease p s c).state := by
  unfold Machine.ownRelease
  split
  · exact refl s
  · exact ⟨rfl, rfl, rfl, rfl, rfl, rfl⟩

theorem ownReadNow (s : State) (p : Port) (t : Nat) (rq : ReadNowRequest) :
    s.LinkKept (ownReadNow t p s rq).state := by
  unfold Machine.ownReadNow
  split
  · exact refl s
  · exact (queueDemand s _).chooseIfIdle t

theorem ownCapture (s : State) (p : Port) (t : Nat) (rq : CaptureRequest) :
    s.LinkKept (ownCapture t p s rq).state := by
  unfold Machine.ownCapture
  split
  · exact refl s
  · exact ((queueCapture s _).takeHead t).chooseIfIdle t

theorem ownCancelCapture (s : State) (p : Port) (t : Nat) (tag : Tag) :
    s.LinkKept (ownCancelCapture t p s tag).state := by
  unfold Machine.ownCancelCapture
  split
  · exact ((refl s).cancel p t).chooseIfIdle t
  · split <;> exact refl s

end State.LinkKept

/-! ### What a command does but for the ports -/

/-- The states a command can leave a part in, up to its Host Ports. -/
inductive CoreStep (c : Instr) (s : State) : State → Prop
  | idle : CoreStep c s s
  | lease (t : Nat) (p : Port) (sdi : List Bool) : c = .selectRelease t p sdi →
      CoreStep c s (s.setSession p ((s.sessionOf p).restartLease t))
  | opened (t : Nat) (p : Port) (rq : OpenRequest) : c = .openSession t p → s.sessionOpen p = false →
      CoreStep c s
        ((s.setSession p ((s.sessionOf p).opened rq t)).setResults p
          { s.resultsOf p with watermark := watermarkOf rq.watermark })
  | closed (t : Nat) (p : Port) : c = .closeSession t p → CoreStep c s (s.teardown p t)
  | linkResetOpen (t : Nat) (p : Port) : c = .linkReset t p → s.sessionOpen p = true →
      CoreStep c s ((s.teardown p t).setSession p (s.sessionOf p).close.clearFlags)
  | linkResetClosed (t : Nat) (p : Port) : c = .linkReset t p → s.sessionOpen p = false →
      CoreStep c s (s.setSession p (s.sessionOf p).clearFlags)
  | paced (p : Port) (pace : Nat) : c = .setPace p → s.sessionOpen p = true →
      CoreStep c s (s.writePace p pace)
  | claim (t : Nat) (p : Port) (rq : ClaimRequest) : c = .claim t p → s.sessionOpen p = true →
      s.judgeClaim p rq = none → CoreStep c s (s.takeClaim p rq t)
  | release (p : Port) (ch : Channel) : c = .release p →
      CoreStep c s (s.setClaims (s.claims.set p ch none))
  | readNow (t : Nat) (p : Port) (rq : ReadNowRequest) : c = .readNow t p → s.sessionOpen p = true →
      s.judgeReadNow p rq = none →
      CoreStep c s ((s.queueDemand (rq.entry p s.freshDemandTag)).chooseIfIdle t)
  | capture (t : Nat) (p : Port) (rq : CaptureRequest) : c = .capture t p → s.sessionOpen p = true →
      (∀ tag, (rq.entry p tag).Lawful) → s.judgeCapture p rq = none →
      CoreStep c s
        (((s.queueCapture (rq.entry p s.capture.nextTag)).takeHead t).chooseIfIdle t)
  | cancel (t : Nat) (p : Port) (tag : Tag) : c = .cancelCapture t p →
      s.capture.holds p tag = true → CoreStep c s ((s.cancel p t).chooseIfIdle t)
  | fewerRecords (p : Port) (k : Nat) : c = .getResults p →
      CoreStep c s (s.setResults p { s.resultsOf p with records := (s.resultsOf p).records.drop k })
  | resume (p : Port) : c = .resume p →
      CoreStep c s (s.setResults p { s.resultsOf p with lapsed := false, lost := 0 })
  | watermark (p : Port) (n : Nat) : c = .setWatermark p →
      CoreStep c s (s.setResults p { s.resultsOf p with watermark := n })
  | fewerEvents (p : Port) (n : Nat) : c = .getEvents p →
      CoreStep c s (s.setEvents p { events := (s.eventsOf p).events.drop n, lost := false })
  | tick (t : Nat) : c = .pacingTick → s.sched.pacingTimer = some t → CoreStep c s (s.tick t)
  | complete (w : Work) : c = .conversionComplete → s.conv.work = some w →
      CoreStep c s (s.complete w)
  | edge (t : Nat) (l : TriggerLine) (e : Edge) : c = .triggerEdge t l e →
      CoreStep c s (s.takeEdge l e t)
  | timeout (cp : Capture) (t : Nat) : c = .armTimeout → s.capture.bank = .armed cp t →
      CoreStep c s (s.timeoutCapture cp t)
  | expired (p : Port) (t : Nat) : c = .leaseExpiry p → s.sessionOpen p = true →
      CoreStep c s ((s.teardown p t).setSession p (s.sessionOf p).close.setExpired)
  | powerOn : c = .powerOn → CoreStep c s (s.resetPart (.const 0))
  | rstn : c = .rstn →
      CoreStep c s
        { s.resetPart (.tabulate fun p => (s.sessionOf p).epoch) with rstnAsserted := true }
  | rstnRelease : c = .rstnRelease → CoreStep c s { s with rstnAsserted := false }

/-- A command is done in every state, and what it does is one of the steps above, with the ports written. -/
def CoreDone (c : Instr) (s u : State) : Prop :=
  ∃ v x, CoreStep c s v ∧ u = { v with ports := x }

namespace CoreDone

variable {c : Instr} {s u : State} {p : Port}

theorem of_step (h : CoreStep c s u) : CoreDone c s u :=
  ⟨u, u.ports, h, rfl⟩

theorem setPort (h : CoreDone c s u) (p : Port) (x : HostPort) : CoreDone c s (u.setPort p x) := by
  obtain ⟨v, y, hv, rfl⟩ := h
  exact ⟨v, y.set p x, hv, rfl⟩

/-- A request does what its owner does, and answers. -/
theorem of_serve {α : Type} {k : Kind} {read : List Byte → Option α} {owner : State → α → Answer}
    (ho : ∀ x f, s.commonRefusal p k f = none → read f.payload = some x →
      CoreDone c s (owner s x).state) : CoreDone c s (s.serve p k read owner) :=
  State.serve_keeps (P := CoreDone c s) (of_step .idle) (fun _ _ h => h.setPort _ _)
    fun x f _ _ hc hr => ho x f hc hr

theorem teardown_sessionOf (s : State) (p : Port) (t : Nat) :
    (s.teardown p t).sessionOf p = (s.sessionOf p).close := by
  rw [State.sessionOf, State.teardown_sessions, PerPort.get_set_self]

theorem releaseSelect (s : State) (p : Port) (sdi : List Bool) (t : Nat) :
    CoreDone (.selectRelease t p sdi) s (s.releaseSelect p sdi t) := by
  unfold State.releaseSelect
  split
  · exact of_step .idle
  · split
    · exact (of_step .idle).setPort _ _
    · refine CoreDone.setPort ?_ _ _
      unfold State.judgeFrame
      split
      · exact (of_step .idle).setPort _ _
      · split <;> exact ((of_step .idle).setPort _ _).setPort _ _
      · split
        · unfold State.takeFrame
          split
          · exact ⟨_, _, .lease t p sdi rfl, rfl⟩
          · exact ((of_step .idle).setPort _ _).setPort _ _
        · exact ((of_step .idle).setPort _ _).setPort _ _

end CoreDone

/-- Every command is done in every state. -/
theorem exec_core (c : Instr) (s : State) : ∃ u, exec c s = .next u ∧ CoreDone c s u := by
  have hidle : CoreDone c s s := .of_step .idle
  cases c
  case selectAssert p =>
    refine ⟨_, rfl, ?_⟩
    unfold State.assertSelect
    split
    · exact hidle
    · split
      · exact hidle
      · exact hidle.setPort _ _
  case selectRelease t p sdi => exact ⟨_, rfl, .releaseSelect s p sdi t⟩
  case openSession t p =>
    refine ⟨_, rfl, .of_serve fun rq f _ _ => ?_⟩
    unfold ownOpen
    split
    · exact hidle
    · rename_i ho; exact .of_step (.opened t p rq rfl (by simpa using ho))
  case closeSession t p => exact ⟨_, rfl, .of_serve fun _ f _ _ => .of_step (.closed t p rfl)⟩
  case linkReset t p =>
    refine ⟨_, rfl, .of_serve fun _ f _ _ => ?_⟩
    simp only [ownLinkReset, State.teardownIfOpen]
    refine CoreDone.setPort ?_ _ _
    split
    · rename_i ho
      rw [CoreDone.teardown_sessionOf]
      exact .of_step (.linkResetOpen t p rfl ho)
    · rename_i ho
      exact .of_step (.linkResetClosed t p rfl (by simpa using ho))
  case setPace p =>
    refine ⟨_, rfl, .of_serve fun pace f hc _ => ?_⟩
    unfold ownSetPace
    split
    · exact hidle
    · exact .of_step (.paced p pace rfl (State.commonRefusal_open hc rfl))
  case claim t p =>
    refine ⟨_, rfl, .of_serve fun rq f hc _ => ?_⟩
    unfold ownClaim
    split
    · exact hidle
    · rename_i hj; exact .of_step (.claim t p rq rfl (State.commonRefusal_open hc rfl) hj)
  case release p =>
    refine ⟨_, rfl, .of_serve fun ch f _ _ => ?_⟩
    unfold ownRelease
    split
    · exact hidle
    · exact .of_step (.release p ch rfl)
  case readNow t p =>
    refine ⟨_, rfl, .of_serve fun rq f hc _ => ?_⟩
    unfold ownReadNow
    split
    · exact hidle
    · rename_i hj; exact .of_step (.readNow t p rq rfl (State.commonRefusal_open hc rfl) hj)
  case capture t p =>
    refine ⟨_, rfl, .of_serve fun rq f hc hr => ?_⟩
    unfold ownCapture
    split
    · exact hidle
    · rename_i hj
      exact .of_step
        (.capture t p rq rfl (State.commonRefusal_open hc rfl) (readCapture_lawful hr p) hj)
  case cancelCapture t p =>
    refine ⟨_, rfl, .of_serve fun tag f _ _ => ?_⟩
    unfold ownCancelCapture
    split
    · rename_i hh; exact .of_step (.cancel t p tag rfl hh)
    · split <;> exact hidle
  case getResults p => exact ⟨_, rfl, .of_serve fun n f _ _ => .of_step (.fewerRecords p _ rfl)⟩
  case resume p =>
    refine ⟨_, rfl, .of_serve fun _ f _ _ => ?_⟩
    simp only [ownResume]
    split
    · exact .of_step (.resume p rfl)
    · exact hidle
  case setWatermark p => exact ⟨_, rfl, .of_serve fun n f _ _ => .of_step (.watermark p n rfl)⟩
  case getEvents p => exact ⟨_, rfl, .of_serve fun n f _ _ => .of_step (.fewerEvents p n rfl)⟩
  case unknownKind p =>
    refine ⟨_, rfl, ?_⟩
    unfold State.answerUnknown
    split
    · exact hidle
    · split
      · exact hidle
      · exact hidle.setPort _ _
  case powerOn => exact ⟨_, rfl, .of_step (.powerOn rfl)⟩
  case rstn => exact ⟨_, rfl, .of_step (.rstn rfl)⟩
  case pacingTick =>
    cases ht : s.sched.pacingTimer with
    | none => exact ⟨s, by simp only [exec, execPacingTick, ht], hidle⟩
    | some t => exact ⟨_, by simp only [exec, execPacingTick, ht], .of_step (.tick t rfl ht)⟩
  case conversionComplete =>
    cases hw : s.conv.work with
    | none => exact ⟨s, by simp only [exec, execConversionComplete, hw], hidle⟩
    | some w =>
      exact ⟨_, by simp only [exec, execConversionComplete, hw], .of_step (.complete w rfl hw)⟩
  case triggerEdge t l e => exact ⟨_, rfl, .of_step (.edge t l e rfl)⟩
  case armTimeout =>
    cases hb : s.capture.bank with
    | free => exact ⟨s, by simp only [exec, execArmTimeout, hb], hidle⟩
    | armed cp t => exact ⟨_, by simp only [exec, execArmTimeout, hb], .of_step (.timeout cp t rfl hb)⟩
    | holding cp cancelled sampled values =>
      exact ⟨s, by simp only [exec, execArmTimeout, hb], hidle⟩
  case leaseExpiry p =>
    cases ht : (s.sessionOf p).leaseTimer with
    | none => exact ⟨s, by simp only [exec, execLeaseExpiry, ht], hidle⟩
    | some t =>
      cases ho : s.sessionOpen p with
      | false => exact ⟨s, by simp [exec, execLeaseExpiry, ht, ho], hidle⟩
      | true =>
        refine ⟨s.expire p t, by simp [exec, execLeaseExpiry, ht, ho], ?_⟩
        unfold State.expire
        dsimp only
        rw [CoreDone.teardown_sessionOf]
        exact .of_step (.expired p t rfl ho)
  case rstnRelease => exact ⟨_, rfl, .of_step (.rstnRelease rfl)⟩
  case status p => exact ⟨_, rfl, .of_serve fun _ f _ _ => hidle⟩
  case readTable p => exact ⟨_, rfl, .of_serve fun _ f _ _ => hidle⟩
  case repeatBadLength p => exact ⟨_, rfl, .of_serve fun _ f _ _ => hidle⟩

theorem exec_coreDone {c : Instr} {s u : State} (h : exec c s = .next u) : CoreDone c s u := by
  obtain ⟨v, hv, hd⟩ := exec_core c s
  rw [hv] at h
  injection h with h
  exact h ▸ hd

/-! ### Session records -/

/-- The records a command can leave a session with. -/
inductive SessionStep (c : Instr) (s : State) (p : Port) : Session → Prop
  | same : SessionStep c s p (s.sessionOf p)
  | lease (t : Nat) (sdi : List Bool) : c = .selectRelease t p sdi →
      SessionStep c s p ((s.sessionOf p).restartLease t)
  | opened (t : Nat) (rq : OpenRequest) : c = .openSession t p → s.sessionOpen p = false →
      SessionStep c s p ((s.sessionOf p).opened rq t)
  | closed (t : Nat) : c = .closeSession t p → SessionStep c s p (s.sessionOf p).close
  | linkResetOpen (t : Nat) : c = .linkReset t p → s.sessionOpen p = true →
      SessionStep c s p (s.sessionOf p).close.clearFlags
  | linkResetClosed (t : Nat) : c = .linkReset t p → s.sessionOpen p = false →
      SessionStep c s p (s.sessionOf p).clearFlags
  | paced (pace : Nat) : c = .setPace p → s.sessionOpen p = true →
      SessionStep c s p { s.sessionOf p with pace := some pace }
  | expired : c = .leaseExpiry p → s.sessionOpen p = true →
      SessionStep c s p (s.sessionOf p).close.setExpired
  | powerOn : c = .powerOn → SessionStep c s p (.reset 0)
  | rstn : c = .rstn → SessionStep c s p (.reset (s.sessionOf p).epoch)

namespace SessionStep

variable {c : Instr} {s u : State} {p q : Port} {x : Session}

theorem of_eq (h : u.sessions = s.sessions) : SessionStep c s q (u.sessionOf q) := by
  rw [State.sessionOf, h]
  exact .same

/-- One record written, the others as they were. -/
theorem of_set (h : u.sessions = s.sessions.set p x) (hx : SessionStep c s p x) :
    SessionStep c s q (u.sessionOf q) := by
  rw [State.sessionOf, h, PerPort.get_set]
  split
  · rename_i hq
    exact hq ▸ hx
  · exact .same

end SessionStep

/-- What a command can do to the session records. -/
theorem exec_session {c : Instr} {s u : State} (h : exec c s = .next u) (q : Port) :
    SessionStep c s q (u.sessionOf q) := by
  obtain ⟨v, x, hv, rfl⟩ := exec_coreDone h
  change SessionStep c s q (v.sessionOf q)
  cases hv with
  | idle => exact .same
  | lease t p sdi hc => exact .of_set rfl (.lease t sdi hc)
  | opened t p rq hc ho => exact .of_set rfl (.opened t rq hc ho)
  | closed t p hc => exact .of_set (s.teardown_sessions p t) (.closed t hc)
  | linkResetOpen t p hc ho =>
    refine .of_set (p := p) ?_ (.linkResetOpen t hc ho)
    rw [State.setSession_sessions, State.teardown_sessions, PerPort.set_set]
  | linkResetClosed t p hc ho => exact .of_set rfl (.linkResetClosed t hc ho)
  | paced p pace hc ho => exact .of_set rfl (.paced pace hc ho)
  | claim t p rq _ _ _ => exact .of_eq (State.LinkKept.takeClaim s p rq t).sessions
  | release p ch _ => exact .same
  | readNow t p rq _ _ _ =>
    exact .of_eq ((State.LinkKept.queueDemand s _).chooseIfIdle t).sessions
  | capture t p rq _ _ _ _ =>
    exact .of_eq (((State.LinkKept.queueCapture s _).takeHead t).chooseIfIdle t).sessions
  | cancel t p tag _ _ => exact .of_eq (((State.LinkKept.refl s).cancel p t).chooseIfIdle t).sessions
  | fewerRecords | resume | watermark | fewerEvents | rstnRelease => exact .same
  | tick t _ _ => exact .of_eq (State.LinkKept.tick s t).sessions
  | complete w _ _ => exact .of_eq (by rw [State.complete_frame])
  | edge t l e _ => exact .of_eq (State.LinkKept.takeEdge s l e t).sessions
  | timeout cp t _ _ => exact .of_eq (State.LinkKept.timeoutCapture s cp t).sessions
  | expired p t hc ho =>
    refine .of_set (p := p) ?_ (.expired hc ho)
    rw [State.setSession_sessions, State.teardown_sessions, PerPort.set_set]
  | powerOn hc =>
    rw [State.sessionOf, State.resetPart, PerPort.get_tabulate, PerPort.get_const]
    exact .powerOn hc
  | rstn hc =>
    rw [State.sessionOf, State.resetPart, PerPort.get_tabulate, PerPort.get_tabulate]
    exact .rstn hc

/-! ### Host Ports -/

/-- What steps 1 and 2 of a release leave of a port (R143, R146). -/
theorem HostPort.settled_eq (h : HostPort) (sel : Selection) (n : Nat) :
    (h.clearShownDropped sel n).settleFetch sel n = h.settled sel n := by
  have hlen : ∀ r : Reply, r.bytes.length = r.payload.length + 6 := fun r => by
    simp [Reply.bytes, Reply.covered, u16]
  have hclear : h.clearShownDropped sel n =
      { h with dropped := h.dropped && !(sel.status.getLsbD 2 && decide (8 ≤ n)) } := by
    unfold HostPort.clearShownDropped showsDropped
    cases sel.status.getLsbD 2 && decide (8 ≤ n) <;> simp
  rw [hclear]
  unfold HostPort.settleFetch HostPort.settled
  cases hr : h.reply with
  | none => simp
  | some r =>
    simp only [fetchedWhole, hlen, Option.filter_some]
    cases sel.replyShown && decide (8 + 8 * (r.payload.length + 6) ≤ n) <;> simp

/-- Step 3 of a release at its port: the frame a selection carried, judged (R146, R149). -/
def HostPort.judge (h : HostPort) : Carried → HostPort
  | .nothing => h
  | .malformed kind sequence =>
    if h.takesFrame then h.linkError (portReply kind sequence .frameError) else h.drop
  | .frame f =>
    if h.takesFrame then
      if f.good then h.takeGood f else h.linkError (portReply f.kind f.sequence .crcError)
    else h.drop

/-- Whether a release takes a frame with a good CRC, which restarts the lease (R131). -/
def HostPort.takesGood (h : HostPort) : Carried → Bool
  | .nothing => false
  | .malformed _ _ => false
  | .frame f => h.takesFrame && f.good

theorem State.restartLease_eq (s : State) (p : Port) (t : Nat) :
    s.sessions.set p ((s.sessionOf p).restartLease t) = s.leaseRestarted p t := by
  unfold Session.restartLease State.leaseRestarted ofMillis
  split
  · rfl
  · exact PerPort.set_get _ _

theorem State.judgeFrame_eq (s : State) (p : Port) (c : Carried) (t : Nat) :
    s.judgeFrame p c t =
      { s with
        ports := s.ports.set p ((s.portOf p).judge c)
        sessions := if (s.portOf p).takesGood c then s.leaseRestarted p t else s.sessions } := by
  have hport : s.ports.set p (s.portOf p) = s.ports := PerPort.set_get _ _
  cases c with
  | nothing => simp [State.judgeFrame, HostPort.judge, HostPort.takesGood, hport]
  | malformed kind sequence =>
    simp only [State.judgeFrame, HostPort.judge, HostPort.takesGood]
    split <;> simp [State.setPort]
  | frame f =>
    simp only [State.judgeFrame, HostPort.judge, HostPort.takesGood, State.takeFrame]
    split
    · split
      · simp [State.setPort, State.setSession, ← s.restartLease_eq, *]
      · simp [State.setPort, *]
    · simp [State.setPort, *]

/-- The release of a selection that is not void, its steps in one equation (R146). -/
theorem State.releaseSelect_eq {s : State} {p : Port} {sel : Selection} (sdi : List Bool) (t : Nat)
    (hr : s.rstnAsserted = false) (hs : (s.portOf p).selection = some sel) :
    s.releaseSelect p sdi t =
      { s with
        ports :=
          s.ports.set p (((s.portOf p).settled sel sdi.length).judge (carried sdi)).endSelection
        sessions :=
          if ((s.portOf p).settled sel sdi.length).takesGood (carried sdi) then s.leaseRestarted p t
          else s.sessions } := by
  have hn : ¬s.rstnAsserted = true := by simp [hr]
  simp only [State.releaseSelect, hs, if_neg hn, State.judgeFrame_eq, HostPort.settled_eq,
    State.setPort_portOf_self]
  simp only [State.setPort, State.portOf, PerPort.get_set_self, PerPort.set_set]
  rfl

theorem State.releaseSelect_void {s : State} {p : Port} (sdi : List Bool) (t : Nat)
    (hs : (s.portOf p).selection = none) : s.releaseSelect p sdi t = s := by
  simp only [State.releaseSelect, hs]

theorem State.releaseSelect_rstn {s : State} {p : Port} {sel : Selection} (sdi : List Bool) (t : Nat)
    (hr : s.rstnAsserted = true) (hs : (s.portOf p).selection = some sel) :
    s.releaseSelect p sdi t = s.setPort p (s.portOf p).endSelection := by
  simp only [State.releaseSelect, hs, hr, if_true]

/-- The ports a command can leave a Host Port as. -/
inductive PortStep (c : Instr) (s : State) (p : Port) : HostPort → Prop
  | same : PortStep c s p (s.portOf p)
  | asserted : c = .selectAssert p → (s.portOf p).selection = none →
      PortStep c s p { s.portOf p with selection := some (s.fixSelection p) }
  | void (t : Nat) (sdi : List Bool) : c = .selectRelease t p sdi →
      PortStep c s p (s.portOf p).endSelection
  | released (t : Nat) (sdi : List Bool) (sel : Selection) : c = .selectRelease t p sdi →
      PortStep c s p (((s.portOf p).settled sel sdi.length).judge (carried sdi)).endSelection
  | answered (f : Frame) (st : Status) (payload : List Byte) : portOfCommand c = some p →
      (s.portOf p).request = some f →
      PortStep c s p ((s.portOf p).makeReady (replyTo f st payload))
  | linkReset (t : Nat) (f : Frame) : c = .linkReset t p → (s.portOf p).request = some f →
      PortStep c s p ((s.portOf p).linkReset.makeReady (replyTo f .ok []))
  | reset : c = .powerOn ∨ c = .rstn → PortStep c s p .reset

namespace PortStep

variable {c : Instr} {s u : State} {p q : Port} {x : HostPort}

theorem of_eq (h : u.ports = s.ports) : PortStep c s q (u.portOf q) := by
  rw [State.portOf, h]
  exact .same

/-- One port written, the others as they were. -/
theorem of_set (h : u.ports = s.ports.set p x) (hx : PortStep c s p x) :
    PortStep c s q (u.portOf q) := by
  rw [State.portOf, h, PerPort.get_set]
  split
  · rename_i hq
    exact hq ▸ hx
  · exact .same

/-- A request whose owner leaves the ports alone is answered at its own port (R150). -/
theorem of_serve {α : Type} {k : Kind} {read : List Byte → Option α} {owner : State → α → Answer}
    (hc : portOfCommand c = some p) (ho : ∀ x, (owner s x).state.ports = s.ports) :
    PortStep c s q ((s.serve p k read owner).portOf q) := by
  rcases State.serve_cases (s := s) (p := p) (k := k) (read := read) (owner := owner) with
    h | ⟨f, hf, -, ⟨st, h⟩ | ⟨x, -, -, h⟩⟩ <;> rw [h]
  · exact .same
  · exact .of_set rfl (.answered f st [] hc hf)
  · rw [State.makeReady_answered _ _ _ (ho x)]
    exact .of_set rfl (.answered f _ _ hc hf)

end PortStep

/-- What a command can do to a Host Port. -/
theorem exec_port {c : Instr} {s u : State} (h : exec c s = .next u) (q : Port) :
    PortStep c s q (u.portOf q) := by
  cases c <;> simp only [exec] at h
  case selectAssert p =>
    injection h with h; subst h
    unfold State.assertSelect
    split
    · exact .same
    · split
      · exact .same
      · rename_i hs
        exact .of_set rfl (.asserted rfl hs)
  case selectRelease t p sdi =>
    injection h with h; subst h
    cases hs : (s.portOf p).selection with
    | none => rw [State.releaseSelect_void sdi t hs]; exact .same
    | some sel =>
      cases hr : s.rstnAsserted with
      | true => rw [State.releaseSelect_rstn sdi t hr hs]; exact .of_set rfl (.void t sdi rfl)
      | false => rw [State.releaseSelect_eq sdi t hr hs]; exact .of_set rfl (.released t sdi sel rfl)
  case openSession t p =>
    injection h with h; subst h
    refine .of_serve rfl fun rq => ?_
    unfold ownOpen
    split <;> rfl
  case closeSession t p =>
    injection h with h; subst h
    exact .of_serve rfl fun _ => s.teardown_ports p t
  case linkReset t p =>
    injection h with h; subst h
    rcases State.serve_cases (s := s) (p := p) (k := .linkReset) (read := readNothing)
      (owner := ownLinkReset t p) with h | ⟨f, hf, -, ⟨st, h⟩ | ⟨x, -, -, h⟩⟩ <;> rw [h]
    · exact .same
    · exact .of_set rfl (.answered f st [] rfl hf)
    · have hports : (s.teardownIfOpen p t).ports = s.ports := by
        unfold State.teardownIfOpen
        split
        · exact s.teardown_ports p t
        · rfl
      refine .of_set (p := p) (x := (s.portOf p).linkReset.makeReady (replyTo f .ok [])) ?_
        (.linkReset t f rfl hf)
      simp [State.makeReady, ownLinkReset, State.portOf, hports]
  case setPace p =>
    injection h with h; subst h
    refine .of_serve rfl fun pace => ?_
    unfold ownSetPace
    split <;> rfl
  case claim t p =>
    injection h with h; subst h
    exact .of_serve rfl fun rq => (State.LinkKept.ownClaim s p t rq).ports
  case release p =>
    injection h with h; subst h
    exact .of_serve rfl fun ch => (State.LinkKept.ownRelease s p ch).ports
  case readNow t p =>
    injection h with h; subst h
    exact .of_serve rfl fun rq => (State.LinkKept.ownReadNow s p t rq).ports
  case capture t p =>
    injection h with h; subst h
    exact .of_serve rfl fun rq => (State.LinkKept.ownCapture s p t rq).ports
  case cancelCapture t p =>
    injection h with h; subst h
    exact .of_serve rfl fun tag => (State.LinkKept.ownCancelCapture s p t tag).ports
  case resume p =>
    injection h with h; subst h
    refine .of_serve rfl fun _ => ?_
    simp only [ownResume]
    split <;> rfl
  case unknownKind p =>
    injection h with h; subst h
    unfold State.answerUnknown
    split
    · exact .same
    · rename_i f hf
      split
      · exact .same
      · exact .of_set rfl (.answered f .unknownKind [] rfl hf)
  case powerOn =>
    injection h with h; subst h
    rw [State.portOf, State.resetPart, PerPort.get_const]
    exact .reset (.inl rfl)
  case rstn =>
    injection h with h; subst h
    rw [State.portOf, State.resetPart, PerPort.get_const]
    exact .reset (.inr rfl)
  case pacingTick =>
    unfold execPacingTick at h
    split at h <;> injection h with h <;> subst h
    · exact .same
    · exact .of_eq (State.LinkKept.tick s _).ports
  case conversionComplete =>
    unfold execConversionComplete at h
    split at h <;> injection h with h <;> subst h
    · exact .same
    · exact .of_eq (by rw [State.complete_frame])
  case triggerEdge t l e =>
    injection h with h; subst h
    exact .of_eq (State.LinkKept.takeEdge s l e t).ports
  case armTimeout =>
    unfold execArmTimeout at h
    split at h <;> injection h with h <;> subst h
    · exact .same
    · exact .of_eq (State.LinkKept.timeoutCapture s _ _).ports
    · exact .same
  case leaseExpiry p =>
    unfold execLeaseExpiry at h
    split at h
    · injection h with h; subst h; exact .same
    · split at h <;> injection h with h <;> subst h
      · exact .of_eq (s.teardown_ports p _)
      · exact .same
  case rstnRelease => injection h with h; subst h; exact .same
  case status | getResults | readTable | setWatermark | getEvents | repeatBadLength =>
    injection h with h; subst h
    exact .of_serve rfl fun _ => rfl

end Sys2Proof.Machine
end

section
/-! SUPPORT. The laws of the session records and of the Host Ports, and what stays with one port
(R128, R138, R140, R151). -/

-- In sequence, as the sections above.
set_option Elab.async false

namespace Sys2Proof.Machine

/-! ### What no command touches -/

/-- No command touches the analog levels or the waiting commands. -/
theorem CoreStep.world {c : Instr} {s v : State} (h : CoreStep c s v) :
    v.pending = s.pending ∧ v.analog = s.analog := by
  have kept : ∀ u : State, s.LinkKept u → u.pending = s.pending ∧ u.analog = s.analog :=
    fun u hu => ⟨hu.pending, hu.analog⟩
  cases h with
  | idle | lease | opened | linkResetClosed | paced | release | fewerRecords | resume | watermark
  | fewerEvents | powerOn | rstn | rstnRelease => exact ⟨rfl, rfl⟩
  | closed t p _ => exact ⟨s.teardown_pending p t, s.teardown_analog p t⟩
  | linkResetOpen t p _ _ => exact ⟨s.teardown_pending p t, s.teardown_analog p t⟩
  | expired p t _ _ => exact ⟨s.teardown_pending p t, s.teardown_analog p t⟩
  | claim t p rq _ _ _ => exact kept _ (State.LinkKept.takeClaim s p rq t)
  | readNow t p rq _ _ _ => exact kept _ ((State.LinkKept.queueDemand s _).chooseIfIdle t)
  | capture t p rq _ _ _ _ =>
    exact kept _ (((State.LinkKept.queueCapture s _).takeHead t).chooseIfIdle t)
  | cancel t p tag _ _ => exact kept _ (((State.LinkKept.refl s).cancel p t).chooseIfIdle t)
  | tick t _ _ => exact kept _ (State.LinkKept.tick s t)
  | complete w _ _ => constructor <;> rw [State.complete_frame]
  | edge t l e _ => exact kept _ (State.LinkKept.takeEdge s l e t)
  | timeout cp t _ _ => exact kept _ (State.LinkKept.timeoutCapture s cp t)

/-! ### Session records -/

namespace Session.Lawful

variable {r : Session}

theorem restartLease (h : r.Lawful) (t : Nat) : (r.restartLease t).Lawful := by
  unfold Session.restartLease
  split
  · rename_i ho
    obtain ⟨hopen, -, hflags⟩ := h
    obtain ⟨hpace, hlease, -, hexpired, hreset⟩ := hopen ho
    exact ⟨fun _ => ⟨hpace, hlease, by simpa using hlease, hexpired, hreset⟩,
      fun hc => absurd (ho.symm.trans hc) (by simp), hflags⟩
  · exact h

theorem opened (r : Session) (rq : OpenRequest) (t : Nat) : (r.opened rq t).Lawful :=
  ⟨fun _ => ⟨rfl, rfl, rfl, rfl, rfl⟩, nofun, nofun⟩

theorem close (h : r.Lawful) : r.close.Lawful :=
  ⟨nofun, fun _ => rfl, h.2.2⟩

theorem clearFlags (h : r.Lawful) (hc : r.isOpen = false) : r.clearFlags.Lawful :=
  ⟨fun ho => absurd (hc.symm.trans ho) (by simp), h.2.1, nofun⟩

/-- EXPIRED is set on a record that was OPEN, which showed no flag (R138). -/
theorem expire (h : r.Lawful) (ho : r.isOpen = true) : r.close.setExpired.Lawful := by
  obtain ⟨-, -, -, -, hreset⟩ := h.1 ho
  refine ⟨nofun, fun _ => rfl, fun hf => ?_⟩
  exact absurd (hreset.symm.trans hf.2) (by simp)

theorem paced (h : r.Lawful) (pace : Nat) : Session.Lawful { r with pace := some pace } :=
  ⟨fun ho => ⟨rfl, (h.1 ho).2⟩, h.2⟩

theorem reset (epoch : Epoch) : (Session.reset epoch).Lawful :=
  ⟨nofun, fun _ => rfl, nofun⟩

end Session.Lawful

theorem SessionStep.lawful {c : Instr} {s : State} {p : Port} {r : Session} (h : SessionStep c s p r)
    (hs : (s.sessionOf p).Lawful) : r.Lawful := by
  cases h with
  | same => exact hs
  | lease t _ _ => exact hs.restartLease t
  | opened t rq _ _ => exact .opened _ rq t
  | closed => exact hs.close
  | linkResetOpen => exact hs.close.clearFlags rfl
  | linkResetClosed t _ hc => exact hs.clearFlags hc
  | paced pace => exact hs.paced pace
  | expired _ ho => exact hs.expire ho
  | powerOn => exact .reset 0
  | rstn => exact .reset _

/-- An epoch is raised by an OPEN of a CLOSED session, cleared by POWER_ON, and else stays (R130). -/
theorem SessionStep.epoch {c : Instr} {s : State} {p : Port} {r : Session} (h : SessionStep c s p r) :
    r.epoch = (s.sessionOf p).epoch ∨ (c = .powerOn ∧ r.epoch = 0) ∨
      ∃ t, c = .openSession t p ∧ s.sessionOpen p = false ∧ r.isOpen = true ∧
        r.epoch = (s.sessionOf p).epoch + 1 := by
  cases h with
  | lease t _ _ =>
    left
    unfold Session.restartLease
    split <;> rfl
  | opened t rq hc ho => exact .inr (.inr ⟨t, hc, ho, rfl, rfl⟩)
  | powerOn hc => exact .inr (.inl ⟨hc, rfl⟩)
  | same | closed | linkResetOpen | linkResetClosed | paced | expired | rstn => exact .inl rfl

/-! ### Host Ports -/

/-- A port's slots are exclusive and its memory is answered (R140, R151). -/
def HostPort.Lawful (h : HostPort) : Prop :=
  (h.request.isSome = true → h.reply = none) ∧ h.MemoryAnswered

theorem State.memoriesAnswered_iff {s : State} :
    s.MemoriesAnswered ↔ ∀ p, (s.portOf p).Lawful :=
  forall_and.symm

namespace HostPort.Lawful

variable {h : HostPort}

theorem settled (hl : h.Lawful) (sel : Selection) (n : Nat) : (h.settled sel n).Lawful := by
  refine ⟨fun hr => ?_, hl.2⟩
  have hnone : h.reply = none := hl.1 hr
  simp [HostPort.settled, hnone]

/-- With no request EXECUTING the memory is answered by the last-reply copy, so a port without a copy
remembers nothing. -/
theorem memory_none (hl : h.Lawful) (hr : h.request = none) (hc : h.lastReply = none) :
    h.memory = none := by
  cases hm : h.memory with
  | none => rfl
  | some m =>
    have ha := hl.2 m hm
    rw [hr] at ha
    obtain ⟨r, hlast, -⟩ := ha
    rw [hc] at hlast
    cases hlast

theorem takeGood (hl : h.Lawful) (hr : h.request = none) (hreply : h.reply = none) (f : Frame) :
    (h.takeGood f).Lawful := by
  have hempty : ∀ r, ({ h with reply := r } : HostPort).Lawful := fun r =>
    ⟨fun hs => by simp [hr] at hs, hl.2⟩
  unfold HostPort.takeGood
  split
  · exact hempty _
  · split
    · unfold HostPort.answerRepeat
      split
      · exact hempty _
      · rename_i hc
        refine ⟨fun hs => by simp [hr] at hs, fun m hm => ?_⟩
        have hnone := hl.memory_none hr hc
        exact absurd (hnone.symm.trans hm) (by simp)
    · exact ⟨fun _ => hreply, fun m hm => Option.some.inj hm⟩

theorem judge (hl : h.Lawful) (c : Carried) : (h.judge c).Lawful := by
  have hdrop : h.drop.Lawful := hl
  have herror : ∀ r, h.takesFrame = true → (h.linkError r).Lawful := fun r ht => by
    simp only [HostPort.takesFrame, Bool.and_eq_true, Option.isNone_iff_eq_none] at ht
    exact ⟨fun hs => by simp [HostPort.linkError, ht.1] at hs, nofun⟩
  cases c with
  | nothing => exact hl
  | malformed kind sequence =>
    unfold HostPort.judge
    dsimp only
    split
    · rename_i ht; exact herror _ ht
    · exact hdrop
  | frame f =>
    unfold HostPort.judge
    dsimp only
    split
    · rename_i ht
      split
      · simp only [HostPort.takesFrame, Bool.and_eq_true, Option.isNone_iff_eq_none] at ht
        exact hl.takeGood ht.1 ht.2 f
      · exact herror _ ht
    · exact hdrop

/-- The reply to the executing frame is the last-reply copy that answers it (R150). -/
theorem makeReady (hl : h.Lawful) {f : Frame} (hf : h.request = some f) (st : Status)
    (payload : List Byte) : (h.makeReady (replyTo f st payload)).Lawful := by
  refine ⟨nofun, fun m hm => ?_⟩
  have ha := hl.2 m hm
  rw [hf] at ha
  obtain rfl : f.remembered = m := ha
  exact ⟨_, rfl, rfl, rfl⟩

end HostPort.Lawful

theorem PortStep.lawful {c : Instr} {s : State} {p : Port} {h : HostPort} (hstep : PortStep c s p h)
    (hs : (s.portOf p).Lawful) : h.Lawful := by
  cases hstep with
  | same => exact hs
  | asserted => exact hs
  | void => exact hs
  | released t sdi sel _ => exact (hs.settled sel sdi.length).judge (carried sdi)
  | answered f st payload _ hf => exact hs.makeReady hf st payload
  | linkReset => exact ⟨nofun, nofun⟩
  | reset => exact ⟨nofun, nofun⟩

/-! ### What stays with one port -/

/-- A port that a command changes is the command's own, unless the command is a reset. -/
theorem PortStep.own {c : Instr} {s : State} {p : Port} {h : HostPort} (hstep : PortStep c s p h) :
    h = s.portOf p ∨ portOfCommand c = some p ∨ c = .powerOn ∨ c = .rstn := by
  cases hstep with
  | same => exact .inl rfl
  | asserted hc => exact .inr (.inl (hc ▸ rfl))
  | void t sdi hc => exact .inr (.inl (hc ▸ rfl))
  | released t sdi sel hc => exact .inr (.inl (hc ▸ rfl))
  | answered f st payload hc => exact .inr (.inl hc)
  | linkReset t f hc => exact .inr (.inl (hc ▸ rfl))
  | reset hc => exact .inr (.inr hc)

/-- A session record that a command changes is of the command's own port, unless the command is a reset. -/
theorem SessionStep.own {c : Instr} {s : State} {p : Port} {r : Session} (h : SessionStep c s p r) :
    r = s.sessionOf p ∨ portOfCommand c = some p ∨ c = .powerOn ∨ c = .rstn := by
  cases h with
  | same => exact .inl rfl
  | lease t sdi hc => exact .inr (.inl (hc ▸ rfl))
  | opened t rq hc => exact .inr (.inl (hc ▸ rfl))
  | closed t hc => exact .inr (.inl (hc ▸ rfl))
  | linkResetOpen t hc => exact .inr (.inl (hc ▸ rfl))
  | linkResetClosed t hc => exact .inr (.inl (hc ▸ rfl))
  | paced pace hc => exact .inr (.inl (hc ▸ rfl))
  | expired hc => exact .inr (.inl (hc ▸ rfl))
  | powerOn hc => exact .inr (.inr (.inl hc))
  | rstn hc => exact .inr (.inr (.inr hc))

/-- A command of one port leaves the result queues of the other sessions (R101). -/
theorem CoreStep.results_other {c : Instr} {s v : State} {p q : Port} (h : CoreStep c s v)
    (hc : portOfCommand c = some p) (hq : q ≠ p) : v.resultsOf q = s.resultsOf q := by
  have kept : ∀ {u : State}, s.LinkKept u → u.resultsOf q = s.resultsOf q := fun hu =>
    congrArg (PerPort.get · q) hu.results
  have own : ∀ {p' : Port} (u : State) x, portOfCommand c = some p' → u.results = s.results →
      (u.setResults p' x).resultsOf q = s.resultsOf q := fun u x hp hu => by
    obtain rfl := Option.some.inj (hp.symm.trans hc)
    rw [State.setResults_resultsOf_ne _ _ _ hq, State.resultsOf, hu]
    rfl
  have torn : ∀ {p' : Port} (u : State), portOfCommand c = some p' →
      u.results = s.results.set p' (s.resultsOf p').teardown → u.resultsOf q = s.resultsOf q :=
    fun u hp hu => by
      obtain rfl := Option.some.inj (hp.symm.trans hc)
      rw [State.resultsOf, hu, PerPort.get_set_ne _ _ hq]
      rfl
  cases h with
  | idle | lease | linkResetClosed | paced | release | fewerEvents | rstnRelease => rfl
  | opened t p' rq hi _ => exact own _ _ (hi ▸ rfl) rfl
  | closed t p' hi => exact torn _ (hi ▸ rfl) (s.teardown_results p' t)
  | linkResetOpen t p' hi _ => exact torn _ (hi ▸ rfl) (s.teardown_results p' t)
  | claim t p' rq _ _ _ => exact kept (State.LinkKept.takeClaim s p' rq t)
  | readNow t p' rq _ _ _ => exact kept ((State.LinkKept.queueDemand s _).chooseIfIdle t)
  | capture t p' rq _ _ _ _ =>
    exact kept (((State.LinkKept.queueCapture s _).takeHead t).chooseIfIdle t)
  | cancel t p' tag _ _ => exact kept (((State.LinkKept.refl s).cancel p' t).chooseIfIdle t)
  | fewerRecords p' k hi => exact own s _ (hi ▸ rfl) rfl
  | resume p' hi => exact own s _ (hi ▸ rfl) rfl
  | watermark p' n hi => exact own s _ (hi ▸ rfl) rfl
  | tick t hi _ => subst hi; cases hc
  | complete w hi _ => subst hi; cases hc
  | edge t l e hi => subst hi; cases hc
  | timeout cp t hi _ => subst hi; cases hc
  | expired p' t hi _ => exact torn _ (hi ▸ rfl) (s.teardown_results p' t)
  | powerOn hi => subst hi; cases hc
  | rstn hi => subst hi; cases hc

end Sys2Proof.Machine
end

section
/-! The statements of the queue of commands, of the resets, and of what every command leaves of sessions and
ports. -/

-- In sequence, as the sections above.
set_option Elab.async false

namespace Sys2Proof

open Machine

/-- Settles O1, by the two cases of the queue. -/
theorem stepRunsFrontCommand : Obligations.StepRunsFrontCommand := by
  refine ⟨fun s c rest h => ?_, fun s h => ?_⟩
  · simp only [step, h]
    rfl
  · simp only [step, h]

/-- Settles O2: what a command does is one of the steps of `CoreStep`, and none of them touches the waiting
commands or the analog levels. -/
theorem everyCommandCompletes : Obligations.EveryCommandCompletes := by
  intro c s
  obtain ⟨u, hu, v, ports, hv, rfl⟩ := exec_core c s
  exact ⟨_, hu, hv.world⟩

/-- Settles O4, by evaluation. -/
theorem resetsClearThePart : Obligations.ResetsClearThePart := fun _ => ⟨rfl, rfl, rfl⟩

/-- Settles O52: every record a command can leave a session with is lawful if the one before was. -/
theorem sessionsLawful : Obligations.SessionsLawful := fun _ _ hs hstep =>
  step_keeps (P := State.SessionsLawful) (fun _ _ h => h)
    (fun _ _ _ h he p => (exec_session he p).lawful (h p)) hs hstep

/-- Settles O53, by the records a command can leave a session with. -/
theorem epochChangesOnlyByOpen : Obligations.EpochChangesOnlyByOpen := fun _ _ _ p he =>
  (exec_session he p).epoch

/-- Settles O58: every port a command can leave is lawful if the one before was. -/
theorem memoriesAnswered : Obligations.MemoriesAnswered := fun _ _ hs hstep =>
  step_keeps (P := State.MemoriesAnswered) (fun _ _ h => h)
    (fun _ _ _ h he => State.memoriesAnswered_iff.mpr fun p =>
      (exec_port he p).lawful (State.memoriesAnswered_iff.mp h p)) hs hstep

/-- Settles O60: a port, a session record or a result queue that a command changes is of its own port. -/
theorem otherPortsUntouched : Obligations.OtherPortsUntouched := by
  refine ⟨fun s p c => ⟨rfl, rfl, rfl, rfl, rfl, rfl⟩, fun α m p q x => PerPort.get_set m p q x,
    fun α m c d x => PerChannel.get_set m c d x, fun ct p c x q d => ct.get_set p q c d x,
    fun c s u he => ⟨fun p q hc hq => ?_, fun hc hpower hrstn => ?_⟩⟩
  · have hport : portOfCommand c ≠ some q := fun h => hq (Option.some.inj (h.symm.trans hc))
    have hreset : ¬(c = .powerOn ∨ c = .rstn) := by rintro (rfl | rfl) <;> cases hc
    obtain ⟨v, ports, hv, rfl⟩ := exec_coreDone he
    exact ⟨((exec_port he q).own.resolve_right fun h => h.elim hport hreset),
      ((exec_session he q).own.resolve_right fun h => h.elim hport hreset), hv.results_other hc hq⟩
  · have hport : ∀ q, ¬(portOfCommand c = some q ∨ c = .powerOn ∨ c = .rstn) := fun q h => by
      rcases h with h | h | h
      · rw [hc] at h; cases h
      · exact hpower h
      · exact hrstn h
    exact ⟨PerPort.ext_get fun q => (exec_port he q).own.resolve_right (hport q),
      PerPort.ext_get fun q => (exec_session he q).own.resolve_right (hport q)⟩

end Sys2Proof
end

section
/-! SUPPORT. The Capture Bank's laws: the list and the bank in agreement, DROOP as judged, and the bank served
to its end (R77, R81, R87 to R92). -/

-- In sequence, as the sections above.
set_option Elab.async false

namespace Sys2Proof.Machine

/-! ### A freed bank -/

/-- What a freed bank takes: nothing from an empty list, else its head, ARMED or sampled (R81, R82). -/
inductive HeadTaken (s : State) (t : Nat) : CaptureBank → Prop
  | none : s.capture.list = [] → HeadTaken s t { s.capture with bank := .free }
  | armed (cp : Capture) (rest : List Capture) (timer : Nat) : s.capture.list = cp :: rest →
      HeadTaken s t { s.capture with extraEdges := 0, bank := .armed cp timer }
  | sampled (cp : Capture) (rest : List Capture) : s.capture.list = cp :: rest →
      HeadTaken s t
        { s.capture with
          extraEdges := 0
          bank := .holding cp false t (cp.items.map (s.freshValue t)) }

theorem State.freeBank_headTaken (s : State) (t : Nat) : HeadTaken s t (s.freeBank t).capture := by
  rw [State.freeBank]
  set u := s.setCapture { s.capture with bank := .free }
  have hbank : u.capture.bank = .free := rfl
  cases hl : s.capture.list with
  | nil =>
    rw [State.takeHead_other (s := u) t (.inr hl)]
    exact .none hl
  | cons cp rest =>
    rw [State.takeHead_free (s := u) t hbank hl]
    unfold State.takeIntoBank
    split
    · exact .sampled cp rest hl
    · exact .armed cp rest _ hl

/-- Taking the head with the bank FREE already is freeing it. -/
theorem State.takeHead_eq_freeBank {s : State} (t : Nat) (h : s.capture.bank = .free) :
    s.takeHead t = s.freeBank t := by
  have hs : s.setCapture { s.capture with bank := .free } = s := by rw [← h]; rfl
  rw [State.freeBank, hs]

namespace HeadTaken

variable {s : State} {t : Nat} {b : CaptureBank}

theorem list (h : HeadTaken s t b) : b.list = s.capture.list := by
  cases h <;> rfl

theorem agrees (h : HeadTaken s t b) : b.Agrees := by
  cases h with
  | none hl => exact hl
  | armed cp rest timer hl => exact congrArg List.head? hl
  | sampled cp rest hl => exact ⟨List.length_map _, fun _ => congrArg List.head? hl⟩

theorem droopJudged (h : HeadTaken s t b) : b.bank.DroopJudged := by
  cases h with
  | none hl => trivial
  | armed cp rest timer hl => trivial
  | sampled cp rest hl =>
    intro v hv
    obtain ⟨it, -, rfl⟩ := List.mem_map.mp hv
    rfl

theorem extraEdges_le (h : HeadTaken s t b) (hs : s.capture.extraEdges ≤ 255) : b.extraEdges ≤ 255 := by
  cases h with
  | none hl => exact hs
  | armed cp rest timer hl => exact Nat.zero_le _
  | sampled cp rest hl => exact Nat.zero_le _

end HeadTaken

/-! ### Agreement of the list and the bank -/

/-- The head of a list stays its head where other sessions' captures leave. -/
theorem head?_without {l : List Capture} {cp : Capture} {p : Port} (h : l.head? = some cp)
    (hp : cp.session ≠ p) : (l.filter fun x => x.session != p).head? = some cp := by
  cases l with
  | nil => cases h
  | cons a l =>
    obtain rfl := Option.some.inj h
    simp [hp]

/-- A bank capture that is not cancelled is in the list (5.1). -/
theorem CaptureBank.Agrees.armed_mem {b : CaptureBank} {cp : Capture} {timer : Nat} (h : b.Agrees)
    (hb : b.bank = .armed cp timer) : cp ∈ b.list := by
  unfold CaptureBank.Agrees at h
  rw [hb] at h
  exact List.mem_of_mem_head? h

theorem CaptureBank.Agrees.holding_head {b : CaptureBank} {cp : Capture} {cancelled : Bool} {n : Nat}
    {values : List ValueSlot} (h : b.Agrees) (hb : b.bank = .holding cp cancelled n values) :
    values.length = cp.items.length ∧ (cancelled = false → b.list.head? = some cp) := by
  unfold CaptureBank.Agrees at h
  rwa [hb] at h

/-- Where a cancel leaves the list: without the session's capture (R91). -/
theorem State.cancel_list (s : State) (p : Port) (t : Nat) :
    (s.cancel p t).capture.list = s.capture.list.filter fun cp => cp.session != p := by
  have hfree : ∀ u : State, (u.freeBank t).capture.list = u.capture.list := fun u =>
    (u.freeBank_headTaken t).list
  unfold State.cancel
  dsimp only
  split
  · rfl
  · split
    · rw [hfree]; rfl
    · rfl
  · split
    · rfl
    · split
      · split
        · rfl
        · rw [hfree]; rfl
      · rfl

/-- Where a teardown leaves the list (R94). -/
theorem State.torn_list (s : State) (p : Port) (t : Nat) :
    ((s.teardownBlocks p).teardownCapture p t).capture.list =
      s.capture.list.filter fun cp => cp.session != p := by
  unfold State.teardownCapture
  dsimp only
  split
  · rw [State.cancel_list]; rfl
  · rename_i h
    have hnone : ∀ cp ∈ s.capture.list, cp.session ≠ p := by
      simpa [CaptureBank.captureOf, State.teardownBlocks] using h
    refine (List.filter_eq_self.mpr fun cp hcp => ?_).symm
    simpa using hnone cp hcp

/-- A cancel leaves the bank as it is, or marked cancelled with its values dropped, or freed (R91). -/
theorem State.cancel_cases (s : State) (p : Port) (t : Nat) :
    ((s.cancel p t).capture = s.capture.without p ∧
        (∀ cp timer, s.capture.bank = .armed cp timer → cp.session ≠ p) ∧
        ∀ cp sampled values, s.capture.bank = .holding cp false sampled values → cp.session ≠ p) ∨
      (∃ cp sampled values, s.capture.bank = .holding cp false sampled values ∧ cp.session = p ∧
        s.captureInFlight cp.tag = true ∧
        (s.cancel p t).capture =
          { s.capture.without p with
            bank := .holding cp true sampled (values.map ValueSlot.drop) }) ∨
      (∀ cp cancelled sampled values, s.capture.bank = .holding cp cancelled sampled values →
          s.captureInFlight cp.tag = false) ∧
        s.cancel p t = (s.setCapture (s.capture.without p)).freeBank t := by
  unfold State.cancel
  cases hb : s.capture.bank with
  | free => exact .inl ⟨rfl, nofun, nofun⟩
  | armed cp timer =>
    by_cases hp : cp.session = p
    · exact .inr (.inr ⟨nofun, by simp only [hp, if_true]⟩)
    · refine .inl ⟨by simp only [hp, if_false, State.setCapture_capture], fun cp' _ he => ?_, nofun⟩
      injection he with he _
      exact he ▸ hp
  | holding cp cancelled sampled values =>
    cases cancelled with
    | true => exact .inl ⟨by simp, nofun, nofun⟩
    | false =>
      by_cases hp : cp.session = p
      · cases hf : s.captureInFlight cp.tag with
        | true => exact .inr (.inl ⟨cp, sampled, values, rfl, hp, hf, by simp [hp, hf]⟩)
        | false =>
          refine .inr (.inr ⟨fun cp' _ _ _ he => ?_, by simp [hp, hf]⟩)
          injection he with he
          exact he ▸ hf
      · refine .inl ⟨by simp [hp], nofun, fun cp' _ _ he => ?_⟩
        injection he with he
        exact he ▸ hp

theorem State.teardownCapture_cases (s : State) (p : Port) (t : Nat) :
    s.teardownCapture p t =
        s.setCapture { s.capture with lastFinished := s.capture.lastFinished.set p none } ∨
      s.teardownCapture p t =
        (s.setCapture { s.capture with lastFinished := s.capture.lastFinished.set p none }).cancel p t := by
  unfold State.teardownCapture
  dsimp only
  split
  · exact .inr rfl
  · exact .inl rfl

/-- A FREE bank takes a queued capture at once; another bank leaves it waiting (R79, R81). -/
theorem State.queueTaken_cases (s : State) (cp : Capture) (t : Nat) :
    (s.capture.bank = .free ∧
        HeadTaken (s.queueCapture cp) t ((s.queueCapture cp).takeHead t).capture) ∨
      (s.capture.bank ≠ .free ∧ (s.queueCapture cp).takeHead t = s.queueCapture cp) := by
  by_cases hb : s.capture.bank = .free
  · refine .inl ⟨hb, ?_⟩
    rw [State.takeHead_eq_freeBank (s := s.queueCapture cp) t hb]
    exact State.freeBank_headTaken _ t
  · exact .inr ⟨hb, State.takeHead_other _ (.inl hb)⟩

namespace CaptureBank.Agrees

variable {b : CaptureBank}

theorem append (h : b.Agrees) (hb : b.bank ≠ .free) (cp : Capture) (tag : Tag) :
    CaptureBank.Agrees { b with list := b.list ++ [cp], nextTag := tag } := by
  unfold CaptureBank.Agrees at h ⊢
  cases hbank : b.bank with
  | free => exact absurd hbank hb
  | armed cp' timer =>
    rw [hbank] at h
    simp [h]
  | holding cp' cancelled sampled values =>
    rw [hbank] at h
    exact ⟨h.1, fun hc => by simp [h.2 hc]⟩

/-- A list that loses a session's capture still agrees with a bank that serves another's. -/
theorem without (h : b.Agrees) {p : Port} (harmed : ∀ cp timer, b.bank = .armed cp timer → cp.session ≠ p)
    (hholding : ∀ cp sampled values, b.bank = .holding cp false sampled values → cp.session ≠ p) :
    (b.without p).Agrees := by
  unfold CaptureBank.Agrees CaptureBank.without at *
  dsimp only
  cases hbank : b.bank with
  | free =>
    rw [hbank] at h
    dsimp only at h ⊢
    rw [h]
    rfl
  | armed cp timer =>
    rw [hbank] at h
    exact head?_without h (harmed cp timer hbank)
  | holding cp cancelled sampled values =>
    rw [hbank] at h
    refine ⟨h.1, fun hc => ?_⟩
    subst hc
    exact head?_without (h.2 rfl) (hholding cp sampled values hbank)

theorem cancel {s : State} (h : s.capture.Agrees) (p : Port) (t : Nat) : (s.cancel p t).capture.Agrees := by
  rcases s.cancel_cases p t with ⟨hc, harmed, hholding⟩ | ⟨cp, sampled, values, hb, -, -, hc⟩ | ⟨-, hc⟩
  · rw [hc]
    exact h.without harmed hholding
  · rw [hc]
    exact ⟨(List.length_map _).trans (h.holding_head hb).1, nofun⟩
  · rw [hc]
    exact (State.freeBank_headTaken _ t).agrees

theorem teardownCapture {s : State} (h : s.capture.Agrees) (p : Port) (t : Nat) :
    (s.teardownCapture p t).capture.Agrees := by
  rcases s.teardownCapture_cases p t with hc | hc <;> rw [hc]
  · exact h
  · exact CaptureBank.Agrees.cancel
      (s := s.setCapture { s.capture with lastFinished := s.capture.lastFinished.set p none }) h p t

/-- A value slot taken or finished leaves the bank in agreement. -/
theorem takeValue (h : b.Agrees) (pos t : Nat) :
    CaptureBank.Agrees { b with bank := b.bank.takeValue pos t } := by
  unfold CaptureBank.Agrees at h ⊢
  cases hbank : b.bank with
  | free => rw [hbank] at h; exact h
  | armed cp timer => rw [hbank] at h; exact h
  | holding cp cancelled sampled values =>
    rw [hbank] at h
    exact ⟨(List.length_modify ..).trans h.1, h.2⟩

end CaptureBank.Agrees

/-- A completed capture leaves the list and frees the bank (R90). -/
theorem State.completeCapture_headTaken (s : State) (cp : Capture) (values : List ValueSlot) (t : Nat) :
    ∃ u : State,
      u.capture =
          { s.capture.without cp.session with
            lastFinished := s.capture.lastFinished.set cp.session (some cp.tag) } ∧
        HeadTaken u t (s.completeCapture cp values t).capture := by
  unfold State.completeCapture
  dsimp only
  exact ⟨_, rfl, State.freeBank_headTaken _ t⟩

theorem State.deliverResult_capture_frame {s : State} {w : Work}
    (h : ∀ tag pos, w.kind ≠ .capture tag pos) : (s.deliverResult w).capture = s.capture := by
  cases hk : w.kind with
  | plan slot => rw [State.deliverResult_plan hk, State.deliverPlan_frame]
  | demand tag p gone => rw [State.deliverResult_demand hk, State.deliverDemand_frame]
  | capture tag pos => exact absurd hk (h tag pos)

/-- What the delivery of a conversion's result leaves of the Capture Bank (R89, R90, R92). -/
theorem State.deliverResult_capture_cases (s : State) (w : Work) :
    ((∀ cp cancelled sampled values, s.capture.bank = .holding cp cancelled sampled values →
          ∀ tag pos, w.kind ≠ .capture tag pos) ∧
        (s.deliverResult w).capture = s.capture) ∨
      ∃ tag pos cp cancelled sampled values, w.kind = .capture tag pos ∧
        s.capture.bank = .holding cp cancelled sampled values ∧
        ((cancelled = true ∧ HeadTaken s w.finish (s.deliverResult w).capture) ∨
          (cancelled = false ∧
            (∃ v ∈ values.modify pos fun v => v.finish (s.workCode w) (s.workClip w), v.result = none) ∧
            (s.deliverResult w).capture =
              { s.capture with
                bank :=
                  .holding cp false sampled
                    (values.modify pos fun v => v.finish (s.workCode w) (s.workClip w)) }) ∨
          (cancelled = false ∧ ∃ u : State,
            u.capture =
                { s.capture.without cp.session with
                  lastFinished := s.capture.lastFinished.set cp.session (some cp.tag) } ∧
              HeadTaken u w.finish (s.deliverResult w).capture)) := by
  cases hk : w.kind with
  | plan slot => exact .inl ⟨by simp, State.deliverResult_capture_frame (by simp [hk])⟩
  | demand tag p gone => exact .inl ⟨by simp, State.deliverResult_capture_frame (by simp [hk])⟩
  | capture tag pos =>
    rw [State.deliverResult_capture hk]
    rcases s.receiveCaptureValue_cases pos (s.workCode w) (s.workClip w) w.finish with
      ⟨hb, h⟩ | ⟨cp, cancelled, sampled, values, hb, h⟩
    · exact .inl ⟨fun _ _ _ _ he => absurd he (hb _ _ _ _), by rw [h]⟩
    · refine .inr ⟨tag, pos, cp, cancelled, sampled, values, rfl, hb, ?_⟩
      rcases h with ⟨rfl, h⟩ | ⟨rfl, hv, h⟩ | ⟨rfl, -, h⟩ <;> rw [h]
      · exact .inl ⟨rfl, s.freeBank_headTaken _⟩
      · exact .inr (.inl ⟨rfl, hv, rfl⟩)
      · obtain ⟨u, hu, hh⟩ := s.completeCapture_headTaken cp _ w.finish
        exact .inr (.inr ⟨rfl, u, hu, hh⟩)

theorem State.deliverResult_agrees {s : State} (h : s.capture.Agrees) (w : Work) :
    (s.deliverResult w).capture.Agrees := by
  rcases s.deliverResult_capture_cases w with
    ⟨-, hc⟩ | ⟨tag, pos, cp, cancelled, sampled, values, -, hb, ⟨-, hh⟩ | ⟨rfl, -, hc⟩ | ⟨-, u, -, hh⟩⟩
  · rw [hc]; exact h
  · exact hh.agrees
  · rw [hc]
    obtain ⟨hlen, hhead⟩ := h.holding_head hb
    exact ⟨(List.length_modify ..).trans hlen, hhead⟩
  · exact hh.agrees

/-- What a delivery leaves of the list: it may lose a session's capture (R90). -/
theorem State.deliverResult_list (s : State) (w : Work) :
    (s.deliverResult w).capture.list.Sublist s.capture.list := by
  rcases s.deliverResult_capture_cases w with
    ⟨-, hc⟩ | ⟨tag, pos, cp, cancelled, sampled, values, -, hb, ⟨-, hh⟩ | ⟨-, -, hc⟩ | ⟨-, u, hu, hh⟩⟩
  · rw [hc]
  · rw [hh.list]
  · rw [hc]
  · rw [hh.list, hu]
    exact List.filter_sublist

namespace State.CapturesLawful

variable {s u : State}

theorem agrees (hs : s.CapturesLawful) : s.capture.Agrees := hs.2.2.2

theorem listed_open (hs : s.CapturesLawful) : ∀ cp ∈ s.capture.list, s.sessionOpen cp.session = true :=
  hs.2.2.1

/-- Captures removed, and no listed session closed, keep the law if the bank agrees. -/
theorem of_sublist (hs : s.CapturesLawful) (hl : u.capture.list.Sublist s.capture.list)
    (ho : ∀ cp ∈ u.capture.list, s.sessionOpen cp.session = true → u.sessionOpen cp.session = true)
    (ha : u.capture.Agrees) : u.CapturesLawful := by
  obtain ⟨hlen, hnodup, hopen, -⟩ := hs
  exact ⟨hl.length_le.trans hlen, hnodup.sublist (hl.map _), fun cp hcp =>
    ho cp hcp (hopen cp (hl.subset hcp)), ha⟩

theorem setSession (hs : s.CapturesLawful) {p : Port} {x : Session}
    (hx : s.sessionOpen p = true → x.isOpen = true) : (s.setSession p x).CapturesLawful := by
  refine hs.of_sublist (List.Sublist.refl _) (fun cp _ h => ?_) hs.agrees
  rw [State.sessionOpen, State.setSession_sessionOf]
  split
  · rename_i hp
    exact hx (hp ▸ h)
  · exact h

/-- A CAPTURE that passes its checks is its session's only one (R77, R78). -/
theorem queueCapture (hs : s.CapturesLawful) {cp : Capture} (t : Nat)
    (hopen : s.sessionOpen cp.session = true) (hnew : ∀ x ∈ s.capture.list, x.session ≠ cp.session) :
    ((s.queueCapture cp).takeHead t).CapturesLawful := by
  obtain ⟨-, hnodup, ho, ha⟩ := hs
  have hn : ((s.capture.list ++ [cp]).map (·.session)).Nodup := by
    rw [List.map_append, List.nodup_append_comm, List.map_singleton, List.singleton_append,
      List.nodup_cons, List.mem_map]
    exact ⟨fun ⟨x, hx, hxs⟩ => hnew x hx hxs, hnodup⟩
  have hlen : (s.capture.list ++ [cp]).length ≤ 3 := by
    rw [← List.length_map (f := Capture.session)]
    exact (hn.subperm fun p _ => mem_allPorts p).length_le
  have hsess : ∀ x ∈ s.capture.list ++ [cp], s.sessionOpen x.session = true := fun x hx => by
    rcases List.mem_append.mp hx with hx | hx
    · exact ho x hx
    · obtain rfl := List.mem_singleton.mp hx
      exact hopen
  rcases s.queueTaken_cases cp t with ⟨-, hh⟩ | ⟨hb, h⟩
  · have hlist := hh.list
    rw [State.takeHead_frame]
    exact ⟨by rw [State.setCapture_capture, hlist]; exact hlen,
      by rw [State.setCapture_capture, hlist]; exact hn,
      by rw [State.setCapture_capture, hlist]; exact hsess, hh.agrees⟩
  · rw [h]
    exact ⟨hlen, hn, hsess, ha.append hb cp _⟩

theorem torn (hs : s.CapturesLawful) (p : Port) (t : Nat) :
    ((s.teardownBlocks p).teardownCapture p t).CapturesLawful := by
  have hlist := s.torn_list p t
  refine hs.of_sublist ?_ (fun cp hcp h => ?_)
    (CaptureBank.Agrees.teardownCapture (s := s.teardownBlocks p) hs.agrees p t)
  · rw [hlist]
    exact List.filter_sublist
  · rw [hlist] at hcp
    have hne : cp.session ≠ p := by simpa using (List.mem_filter.mp hcp).2
    rw [State.teardownCapture_frame]
    exact (congrArg Session.isOpen (PerPort.get_set_ne s.sessions _ hne)).trans h

theorem judgeCapture_new {p : Port} {rq : CaptureRequest} (h : s.judgeCapture p rq = none) :
    ∀ x ∈ s.capture.list, x.session ≠ p := by
  unfold State.judgeCapture at h
  split_ifs at h with hrange hpending
  simpa [CaptureBank.captureOf] using hpending

theorem keptByParts : KeptByParts State.CapturesLawful where
  toKeptByClaims := .of_setClaims fun _ _ hs => hs
  capture s p rq t hs ho _ hj := hs.queueCapture t ho (judgeCapture_new hj)
  cancel s p tag t hs _ := by
    refine hs.of_sublist ?_ (fun cp _ h => ?_) (hs.agrees.cancel p t)
    · rw [s.cancel_list p t]
      exact List.filter_sublist
    · rw [State.cancel_frame]
      exact h
  sample s cp timer t hs hb := by
    refine hs.of_sublist (List.Sublist.refl _) (fun _ _ h => h) ⟨List.length_map _, fun _ => ?_⟩
    have ha := hs.agrees
    unfold CaptureBank.Agrees at ha
    rwa [hb] at ha
  extraEdge s hs := hs
  armTimeout s cp t hs _ := by
    have hh := State.freeBank_headTaken
      (s.setCapture
        { s.capture.without cp.session with
          lastFinished := s.capture.lastFinished.set cp.session (some cp.tag) }) t
    refine hs.of_sublist ?_ (fun cp' _ h => ?_) hh.agrees
    · rw [hh.list]
      exact List.filter_sublist
    · rw [State.freeBank_frame]
      exact h
  torn _ p t hs := hs.torn p t
  boundary s t hs _ := by
    rw [State.boundary_frame]
    exact hs
  captureWork s cp pos it t hs _ _ :=
    hs.of_sublist (List.Sublist.refl _) (fun _ _ h => h) (hs.agrees.takeValue pos t)
  settle s w hs _ := by
    refine hs.of_sublist (s.deliverResult_list w) (fun _ _ h => ?_) (State.deliverResult_agrees hs.agrees w)
    rw [State.deliverResult_frame]
    exact h
  lease s p t hs := hs.setSession fun h => by
    unfold Session.restartLease
    split <;> exact h
  opening s p rq t hs _ _ := hs.setSession fun _ => rfl
  clearFlags s p hs _ := hs.setSession fun h => h
  expired s p hs _ := hs.setSession fun h => h
  pace s p pace hs _ _ := hs.setSession fun h => h
  reset s epochs _ := ⟨Nat.zero_le _, List.nodup_nil, nofun, rfl⟩

end State.CapturesLawful

end Sys2Proof.Machine
end

section
/-! SUPPORT. The bank served to its end: DROOP judged, every conversion in flight the bank capture's, and records
that a reply can carry (R87 to R92, R105, R165). -/

-- In sequence, as the sections above.
set_option Elab.async false

namespace Sys2Proof.Machine

/-! ### DROOP -/

namespace Bank.DroopJudged

/-- The judgement reads of a slot its start instant and its DROOP flag (R88). -/
theorem of_map {cp cp' : Capture} {cancelled cancelled' : Bool} {sampled : Nat} {values values' : List ValueSlot}
    (h : (Bank.holding cp cancelled sampled values).DroopJudged)
    (hv : ∀ v' ∈ values', ∃ v ∈ values, v'.start = v.start ∧ v'.droop = v.droop) :
    (Bank.holding cp' cancelled' sampled values').DroopJudged := by
  intro v' hm
  obtain ⟨v, hv, hstart, hdroop⟩ := hv v' hm
  rw [hstart, hdroop]
  exact h v hv

/-- A slot taken is judged as it is taken (R87, R88). -/
theorem takeValue {b : Bank} (h : b.DroopJudged) (pos t : Nat) : (b.takeValue pos t).DroopJudged := by
  cases b with
  | free => trivial
  | armed cp timer => trivial
  | holding cp cancelled sampled values =>
    intro v' hm
    obtain ⟨i, hi⟩ := List.getElem?_of_mem hm
    rw [List.getElem?_modify, Option.map_eq_map, Option.map_eq_some_iff] at hi
    obtain ⟨v, hv, rfl⟩ := hi
    by_cases hp : pos = i
    · rw [if_pos hp]
      rfl
    · rw [if_neg hp]
      exact h v (List.mem_of_getElem? hv)

theorem cancel {s : State} (h : s.capture.bank.DroopJudged) (p : Port) (t : Nat) :
    (s.cancel p t).capture.bank.DroopJudged := by
  rcases s.cancel_cases p t with ⟨hc, -⟩ | ⟨cp, sampled, values, hb, -, -, hc⟩ | ⟨-, hc⟩ <;> rw [hc]
  · exact h
  · rw [hb] at h
    refine h.of_map fun v' hv' => ?_
    obtain ⟨v, hv, rfl⟩ := List.mem_map.mp hv'
    exact ⟨v, hv, rfl, rfl⟩
  · exact (State.freeBank_headTaken _ t).droopJudged

theorem keptByParts : KeptByParts fun s => s.capture.bank.DroopJudged where
  toKeptByClaims := .of_setClaims fun _ _ hs => hs
  capture s p rq t hs _ _ _ := by
    rcases s.queueTaken_cases (rq.entry p s.capture.nextTag) t with ⟨-, hh⟩ | ⟨-, h⟩
    · exact hh.droopJudged
    · rw [h]
      exact hs
  cancel s p tag t hs _ := cancel hs p t
  sample s cp timer t hs _ := fun v hv => by
    obtain ⟨it, -, rfl⟩ := List.mem_map.mp hv
    rfl
  extraEdge s hs := hs
  armTimeout s cp t hs _ := (State.freeBank_headTaken _ t).droopJudged
  torn s p t hs := by
    rcases (s.teardownBlocks p).teardownCapture_cases p t with hc | hc <;> rw [hc]
    · exact hs
    · exact cancel (s := (s.teardownBlocks p).setCapture
        { (s.teardownBlocks p).capture with
          lastFinished := (s.teardownBlocks p).capture.lastFinished.set p none }) hs p t
  boundary s t hs _ := by
    rw [State.boundary_frame]
    exact hs
  captureWork s cp pos it t hs _ _ := hs.takeValue pos t
  settle s w hs _ := by
    change (s.deliverResult w).capture.bank.DroopJudged
    rcases s.deliverResult_capture_cases w with
      ⟨-, hc⟩ | ⟨tag, pos, cp, cancelled, sampled, values, -, hb, ⟨-, hh⟩ | ⟨-, -, hc⟩ | ⟨-, u, -, hh⟩⟩
    · rw [hc]; exact hs
    · exact hh.droopJudged
    · rw [hc]
      rw [hb] at hs
      refine hs.of_map fun v' hv' => ?_
      obtain ⟨i, hi⟩ := List.getElem?_of_mem hv'
      rw [List.getElem?_modify, Option.map_eq_map, Option.map_eq_some_iff] at hi
      obtain ⟨v, hv, rfl⟩ := hi
      refine ⟨v, List.mem_of_getElem? hv, ?_⟩
      split <;> exact ⟨rfl, rfl⟩
    · exact hh.droopJudged
  reset s epochs _ := trivial

end Bank.DroopJudged

/-! ### The bank served -/

/-- No conversion of a capture is in flight. -/
def State.NoCaptureWork (s : State) : Prop :=
  ∀ w tag pos, s.conv.work = some w → w.kind ≠ .capture tag pos

namespace State.BankServed

variable {s u : State}

/-- The law reads the bank and the work in flight alone. -/
theorem of_eq (hs : s.BankServed) (hc : u.capture = s.capture) (hw : u.conv.work = s.conv.work) :
    u.BankServed := by
  unfold State.BankServed State.WorkOfBank State.captureInFlight at *
  rw [hc, hw]
  exact hs

/-- A bank without a capture, or with one ARMED, has no conversion in flight. -/
theorem noCaptureWork (hs : s.BankServed)
    (h : ∀ cp cancelled sampled values, s.capture.bank ≠ .holding cp cancelled sampled values) :
    s.NoCaptureWork := fun w tag pos hw hk => by
  obtain ⟨cp, cancelled, sampled, values, -, -, hb, -⟩ := hs.2.2.1 w tag pos hw hk
  exact h _ _ _ _ hb

/-- What a freed bank takes is served: nothing in flight, no slot taken, and at least one slot. -/
theorem of_headTaken (h : HeadTaken s t u.capture) (hedges : s.capture.extraEdges ≤ 255)
    (hlawful : ∀ cp ∈ s.capture.list, cp.Lawful) (hw : u.NoCaptureWork) : u.BankServed := by
  refine ⟨h.extraEdges_le hedges, by rw [h.list]; exact hlawful,
    fun w tag pos hwork hk => absurd hk (hw w tag pos hwork), ?_⟩
  generalize u.capture = b at h
  cases h with
  | none hl => nofun
  | armed cp rest timer hl => nofun
  | sampled cp rest hl =>
    intro cp' cancelled sampled values hb
    injection hb with h1 h2 h3 h4
    subst h1 h2 h3 h4
    have hcp : cp.Lawful := hlawful cp (hl ▸ List.mem_cons_self)
    refine ⟨hcp, nofun, fun v hv hr => ?_, fun _ => ⟨?_, fun pos v hv hstart => ?_⟩⟩
    · obtain ⟨it, -, rfl⟩ := List.mem_map.mp hv
      exact absurd rfl hr
    · obtain ⟨it, hit⟩ := List.exists_mem_of_length_pos hcp.1
      exact ⟨_, List.mem_map_of_mem hit, rfl⟩
    · obtain ⟨it, -, rfl⟩ := List.mem_map.mp (List.mem_of_getElem? hv)
      exact absurd rfl hstart

/-- While IDLE the bank capture is not cancelled, and each of its slots is done or not taken. -/
theorem idle (hs : s.BankServed) (hw : s.NoCaptureWork) {cp : Capture} {cancelled : Bool} {sampled : Nat}
    {values : List ValueSlot} (hb : s.capture.bank = .holding cp cancelled sampled values) :
    cancelled = false ∧ ∀ v ∈ values, v.result = none → v.start = none := by
  obtain ⟨-, -, -, hbank⟩ := hs
  obtain ⟨-, hcancel, -, hslots⟩ := hbank cp cancelled sampled values hb
  have hflight : s.captureInFlight cp.tag = false := by
    unfold State.captureInFlight
    split
    · rename_i w hwork
      split
      · rename_i tag pos hk
        exact absurd hk (hw w tag pos hwork)
      · rfl
      · rfl
    · rfl
  have hfalse : cancelled = false := by
    cases cancelled with
    | false => rfl
    | true => exact absurd (hcancel rfl) (by simp [hflight])
  refine ⟨hfalse, fun v hv hr => ?_⟩
  by_contra hstart
  obtain ⟨pos, hpos⟩ := List.getElem?_of_mem hv
  obtain ⟨w, hwork, hk⟩ := (hslots hfalse).2 pos v hpos hstart hr
  exact hw w _ _ hwork hk

/-- Work that is no capture conversion, begun or ended, leaves the bank served. -/
theorem otherWork (hs : s.BankServed) (hw : s.NoCaptureWork) (hc : u.capture = s.capture)
    (hu : u.NoCaptureWork) : u.BankServed := by
  obtain ⟨hedges, hlawful, -, hbank⟩ := id hs
  refine ⟨by rw [hc]; exact hedges, by rw [hc]; exact hlawful,
    fun w tag pos hwork hk => absurd hk (hu w tag pos hwork), fun cp cancelled sampled values hb => ?_⟩
  rw [hc] at hb
  obtain ⟨hcp, -, hdone, hslots⟩ := hbank cp cancelled sampled values hb
  obtain ⟨hfalse, hidle⟩ := hs.idle hw hb
  refine ⟨hcp, fun h => absurd (hfalse.symm.trans h) (by simp), hdone, fun h => ⟨(hslots h).1, ?_⟩⟩
  exact fun pos v hv hstart hr => absurd (hidle v (List.mem_of_getElem? hv) hr) hstart

theorem noWork (h : u.conv.work = none) : u.NoCaptureWork := fun w _ _ hw => by
  rw [h] at hw
  cases hw

end State.BankServed

/-- The offered item is the first whose slot is not taken (R87). -/
theorem firstUntaken_some {items : List CaptureItem} {values : List ValueSlot} {k pos : Nat} {it : CaptureItem}
    (h : firstUntaken k items values = some (pos, it)) :
    ∃ i v, pos = k + i ∧ items[i]? = some it ∧ values[i]? = some v ∧ v.start = none := by
  induction items generalizing k values with
  | nil => simp [firstUntaken] at h
  | cons a items ih =>
    cases values with
    | nil => simp [firstUntaken] at h
    | cons v values =>
      simp only [firstUntaken] at h
      split at h
      · rename_i hv
        obtain ⟨rfl, rfl⟩ := Prod.mk.inj (Option.some.inj h)
        exact ⟨0, v, rfl, rfl, rfl, Option.isNone_iff_eq_none.mp hv⟩
      · obtain ⟨i, v', hpos, hit, hv, hstart⟩ := ih h
        exact ⟨i + 1, v', by omega, hit, hv, hstart⟩

theorem Bank.offer_some {b : Bank} {cp : Capture} {pos : Nat} {it : CaptureItem}
    (h : b.offer = some (cp, pos, it)) :
    ∃ sampled values v, b = .holding cp false sampled values ∧ cp.items[pos]? = some it ∧
      values[pos]? = some v ∧ v.start = none := by
  cases b with
  | free => cases h
  | armed cp timer => cases h
  | holding cp' cancelled sampled values =>
    cases cancelled with
    | true => cases h
    | false =>
      obtain ⟨⟨i, it'⟩, hx, he⟩ := Option.map_eq_some_iff.mp h
      obtain ⟨rfl, rfl, rfl⟩ : cp' = cp ∧ i = pos ∧ it' = it := by simpa using he
      obtain ⟨j, v, hj, hit, hv, hstart⟩ := firstUntaken_some hx
      obtain rfl : i = j := by omega
      exact ⟨sampled, values, v, rfl, hit, hv, hstart⟩

namespace State.BankServed

variable {s u : State}

/-- A capture conversion taken is the bank capture's, of a slot that it marks taken (R87). -/
theorem takeCaptureWork (hs : s.BankServed) {cp : Capture} {pos : Nat} {it : CaptureItem} (t : Nat)
    (hw : s.conv.work = none) (ho : s.capture.bank.offer = some (cp, pos, it)) :
    (s.takeCaptureWork cp pos it t).BankServed := by
  obtain ⟨sampled, values, v, hb, hit, hv, hstart⟩ := Bank.offer_some ho
  obtain ⟨hedges, hlawful, -, hbank⟩ := id hs
  obtain ⟨hcp, -, hdone, hslots⟩ := hbank _ _ _ _ hb
  obtain ⟨-, hidle⟩ := hs.idle (noWork hw) hb
  have hmem : v ∈ values := List.mem_of_getElem? hv
  have hresult : v.result = none := by
    by_contra hr
    exact hdone v hmem hr hstart
  have hbank' : (s.takeCaptureWork cp pos it t).capture.bank =
      .holding cp false sampled (values.modify pos fun v => v.take sampled t) := by
    simp only [State.takeCaptureWork, State.putWork, State.setConv_capture, State.setCapture_capture, hb,
      Bank.takeValue]
  have hget : ∀ i, (values.modify pos fun v => v.take sampled t)[i]? =
      (values[i]?).map fun v => if pos = i then v.take sampled t else v := fun i => by
    rw [List.getElem?_modify]
    rfl
  refine ⟨hedges, hlawful, fun w tag pos' hwork hk => ?_, fun cp' cancelled sampled' values' hb' => ?_⟩
  · obtain rfl := Option.some.inj hwork
    injection hk with htag hpos
    subst htag hpos
    exact ⟨cp, false, sampled, _, v.take sampled t, it, hbank', rfl, by simp [hget, hv], rfl, hresult, hit,
      rfl, rfl, rfl⟩
  · rw [hbank'] at hb'
    injection hb' with h1 h2 h3 h4
    subst h1 h2 h3 h4
    refine ⟨hcp, nofun, fun v' hv' hr => ?_, fun _ => ⟨⟨v.take sampled t, ?_, hresult⟩, ?_⟩⟩
    · obtain ⟨i, hi⟩ := List.getElem?_of_mem hv'
      rw [hget, Option.map_eq_some_iff] at hi
      obtain ⟨x, hx, rfl⟩ := hi
      by_cases hp : pos = i
      · rw [if_pos hp]
        exact Option.some_ne_none t
      · rw [if_neg hp] at hr ⊢
        exact hdone x (List.mem_of_getElem? hx) hr
    · exact List.mem_of_getElem? (i := pos) (by simp [hget, hv])
    · intro i v' hv' hstart' hr
      rw [hget, Option.map_eq_some_iff] at hv'
      obtain ⟨x, hx, rfl⟩ := hv'
      by_cases hp : pos = i
      · subst hp
        exact ⟨_, rfl, rfl⟩
      · rw [if_neg hp] at hstart' hr
        exact absurd (hidle x (List.mem_of_getElem? hx) hr) hstart'

/-- A cancel leaves the bank served: a conversion in flight keeps the bank for it (R91). -/
theorem cancel (hs : s.BankServed) (p : Port) (t : Nat) : (s.cancel p t).BankServed := by
  obtain ⟨hedges, hlawful, hwork, hbank⟩ := id hs
  have hleft : ∀ cp ∈ (s.capture.without p).list, cp.Lawful := fun cp hcp =>
    hlawful cp (List.mem_of_mem_filter hcp)
  rcases s.cancel_cases p t with ⟨hc, -⟩ | ⟨cp, sampled, values, hb, -, hf, hc⟩ | ⟨hf, hc⟩
  · rw [State.cancel_frame, hc]
    exact ⟨hedges, hleft, hwork, hbank⟩
  · rw [State.cancel_frame, hc]
    obtain ⟨hcp, -, -, -⟩ := hbank _ _ _ _ hb
    refine ⟨hedges, hleft, fun w tag pos hw hk => ?_, fun cp' cancelled sampled' values' hb' => ?_⟩
    · obtain ⟨cp', cancelled, sampled', values', v, it, hb', htag, hv, hstart, -, hrest⟩ :=
        hwork w tag pos hw hk
      rw [hb] at hb'
      injection hb' with h1 h2 h3 h4
      subst h1 h2 h3 h4
      exact ⟨cp, true, sampled, _, v.drop, it, rfl, htag, by simp [hv], hstart, rfl, hrest⟩
    · injection hb' with h1 h2 h3 h4
      subst h1 h2 h3 h4
      refine ⟨hcp, fun _ => hf, fun v hv hr => ?_, nofun⟩
      obtain ⟨x, -, rfl⟩ := List.mem_map.mp hv
      exact absurd rfl hr
  · rw [hc]
    refine of_headTaken (State.freeBank_headTaken _ t) hedges hleft fun w tag pos hw hk => ?_
    rw [State.freeBank_frame] at hw
    obtain ⟨cp, cancelled, sampled, values, v, it, hb, rfl, -⟩ := hwork w tag pos hw hk
    have hflight := hf _ _ _ _ hb
    have hw' : s.conv.work = some w := hw
    simp [State.captureInFlight, hw', hk] at hflight

/-- A capture conversion's value is stored, or the capture is at its end and frees the bank (R89, R90, R92). -/
theorem settle (hs : s.BankServed) {w : Work} (hw : s.conv.work = some w) :
    ((s.deliverResult w).releaseWork w).BankServed := by
  obtain ⟨hedges, hlawful, hwork, hbank⟩ := id hs
  have hidle : ((s.deliverResult w).releaseWork w).NoCaptureWork := noWork rfl
  rcases s.deliverResult_capture_cases w with
    ⟨hno, hc⟩ | ⟨tag, pos, cp, cancelled, sampled, values, hk, hb, ⟨-, hh⟩ | ⟨rfl, hv, hc⟩ | ⟨-, u, hu, hh⟩⟩
  · refine hs.otherWork (fun w' tag pos hw' hk => ?_) hc hidle
    obtain rfl := Option.some.inj (hw.symm.trans hw')
    obtain ⟨cp, cancelled, sampled, values, -, -, hb, -⟩ := hwork w tag pos hw hk
    exact hno _ _ _ _ hb tag pos hk
  · exact of_headTaken hh hedges hlawful hidle
  · obtain ⟨hcp, -, hdone, hslots⟩ := hbank _ _ _ _ hb
    have hstarted : ∀ v, values[pos]? = some v → v.start ≠ none := fun v hvpos => by
      obtain ⟨cp', cancelled, sampled', values', v', -, hb', -, hv', hstart, -⟩ := hwork w tag pos hw hk
      rw [hb] at hb'
      injection hb' with h1 h2 h3 h4
      subst h1 h2 h3 h4
      obtain rfl := Option.some.inj (hvpos.symm.trans hv')
      simp [hstart]
    refine ⟨by rw [State.releaseWork, State.setConv_capture, hc]; exact hedges,
      by rw [State.releaseWork, State.setConv_capture, hc]; exact hlawful,
      fun w tag pos hwork hk => absurd hk (hidle w tag pos hwork), fun cp' cancelled sampled' values' hb' => ?_⟩
    rw [State.releaseWork, State.setConv_capture, hc] at hb'
    injection hb' with h1 h2 h3 h4
    subst h1 h2 h3 h4
    refine ⟨hcp, nofun, fun v' hv' hr => ?_, fun _ => ⟨hv, fun i v' hv' hstart hr => ?_⟩⟩
    · obtain ⟨i, hi⟩ := List.getElem?_of_mem hv'
      rw [List.getElem?_modify, Option.map_eq_map, Option.map_eq_some_iff] at hi
      obtain ⟨x, hx, rfl⟩ := hi
      by_cases hp : pos = i
      · rw [if_pos hp]
        exact hstarted x (hp ▸ hx)
      · rw [if_neg hp] at hr ⊢
        exact hdone x (List.mem_of_getElem? hx) hr
    · rw [List.getElem?_modify, Option.map_eq_map, Option.map_eq_some_iff] at hv'
      obtain ⟨x, hx, rfl⟩ := hv'
      by_cases hp : pos = i
      · rw [if_pos hp] at hr
        cases hr
      · rw [if_neg hp] at hstart hr
        obtain ⟨w', hw', hk'⟩ := (hslots rfl).2 i x hx hstart hr
        obtain rfl := Option.some.inj (hw.symm.trans hw')
        rw [hk] at hk'
        injection hk' with _ hpos
        exact absurd hpos hp
  · refine of_headTaken hh (by rw [hu]; exact hedges) (fun cp hcp => ?_) hidle
    rw [hu] at hcp
    exact hlawful cp (List.mem_of_mem_filter hcp)

/-- A queued capture waits, or a FREE bank takes it at once (R79, R81). -/
theorem queueCapture (hs : s.BankServed) {cp : Capture} (t : Nat) (hcp : cp.Lawful) :
    ((s.queueCapture cp).takeHead t).BankServed := by
  obtain ⟨hedges, hlawful, hwork, hbank⟩ := id hs
  have hlist : ∀ x ∈ (s.queueCapture cp).capture.list, x.Lawful := fun x hx => by
    rcases List.mem_append.mp hx with hx | hx
    · exact hlawful x hx
    · exact List.mem_singleton.mp hx ▸ hcp
  rcases s.queueTaken_cases cp t with ⟨hb, hh⟩ | ⟨-, h⟩
  · refine of_headTaken hh hedges hlist fun w tag pos hw => ?_
    rw [State.takeHead_frame] at hw
    exact hs.noCaptureWork (by simp [hb]) w tag pos hw
  · rw [h]
    exact ⟨hedges, hlist, hwork, hbank⟩

/-- An ARMED capture sampled has a fresh slot for each item (R82). -/
theorem sample (hs : s.BankServed) (ha : s.capture.Agrees) {cp : Capture} {timer : Nat} (t : Nat)
    (hb : s.capture.bank = .armed cp timer) : (s.sample cp t).BankServed := by
  obtain ⟨hedges, hlawful, -, -⟩ := id hs
  have hcp : cp.Lawful := hlawful cp (ha.armed_mem hb)
  refine ⟨hedges, hlawful, fun w tag pos hw hk => ?_, fun cp' cancelled sampled values hb' => ?_⟩
  · exact absurd hk (hs.noCaptureWork (by simp [hb]) w tag pos hw)
  · injection hb' with h1 h2 h3 h4
    subst h1 h2 h3 h4
    refine ⟨hcp, nofun, fun v hv hr => ?_, fun _ => ⟨?_, fun pos v hv hstart => ?_⟩⟩
    · obtain ⟨it, -, rfl⟩ := List.mem_map.mp hv
      exact absurd rfl hr
    · obtain ⟨it, hit⟩ := List.exists_mem_of_length_pos hcp.1
      exact ⟨_, List.mem_map_of_mem hit, rfl⟩
    · obtain ⟨it, -, rfl⟩ := List.mem_map.mp (List.mem_of_getElem? hv)
      exact absurd rfl hstart

/-- The blocks of a teardown leave capture conversions in flight as they are (R59). -/
theorem teardownBlocks (hs : s.BankServed) (p : Port) : (s.teardownBlocks p).BankServed := by
  obtain ⟨hedges, hlawful, hwork, hbank⟩ := hs
  have hconv : (s.teardownBlocks p).conv.work = s.conv.work.map fun w => w.teardown p := rfl
  have hkeep : ∀ tag pos, (∃ w, s.conv.work = some w ∧ w.kind = .capture tag pos) →
      ∃ w, (s.teardownBlocks p).conv.work = some w ∧ w.kind = .capture tag pos := by
    rintro tag pos ⟨w, hw, hk⟩
    exact ⟨w.teardown p, by rw [hconv, hw]; rfl, Work.teardown_capture.mpr hk⟩
  refine ⟨hedges, hlawful, fun w tag pos hw hk => ?_, fun cp cancelled sampled values hb => ?_⟩
  · rw [hconv, Option.map_eq_some_iff] at hw
    obtain ⟨w, hw, rfl⟩ := hw
    obtain ⟨cp, cancelled, sampled, values, v, it, hb, htag, hv, hrest⟩ :=
      hwork w tag pos hw (Work.teardown_capture.mp hk)
    rw [Work.teardown_eq]
    exact ⟨cp, cancelled, sampled, values, v, it, hb, htag, hv, hrest⟩
  · obtain ⟨hcp, hcancel, hdone, hslots⟩ := hbank cp cancelled sampled values hb
    refine ⟨hcp, fun h => ?_, hdone, fun h => ⟨(hslots h).1, fun pos v hv hstart hr => ?_⟩⟩
    · have hf := hcancel h
      unfold State.captureInFlight at hf ⊢
      rw [hconv]
      cases hw : s.conv.work with
      | none => rw [hw] at hf; exact hf
      | some w =>
        rw [hw] at hf
        dsimp only [Option.map_some] at hf ⊢
        cases hk : w.kind with
        | plan n => rw [hk] at hf; cases hf
        | demand tag q gone => rw [hk] at hf; cases hf
        | capture tag pos =>
          rw [hk] at hf
          rw [Work.teardown_capture.mpr hk]
          exact hf
    · exact hkeep _ _ ((hslots h).2 pos v hv hstart hr)

end State.BankServed

/-- The Capture Bank's laws together: agreement with the list, and the bank served. -/
def State.BankLawful (s : State) : Prop :=
  s.CapturesLawful ∧ s.BankServed

theorem State.BankLawful.keptByParts : KeptByParts State.BankLawful where
  toKeptByClaims := .of_setClaims fun _ _ hs => hs
  capture s p rq t hs ho hl hj :=
    ⟨State.CapturesLawful.keptByParts.capture s p rq t hs.1 ho hl hj,
      hs.2.queueCapture t (hl s.capture.nextTag)⟩
  cancel s p tag t hs hh :=
    ⟨State.CapturesLawful.keptByParts.cancel s p tag t hs.1 hh, hs.2.cancel p t⟩
  sample s cp timer t hs hb :=
    ⟨State.CapturesLawful.keptByParts.sample s cp timer t hs.1 hb, hs.2.sample hs.1.agrees t hb⟩
  extraEdge s hs := by
    obtain ⟨hcaptures, -, hserved⟩ := hs
    exact ⟨hcaptures, Nat.min_le_right _ _, hserved⟩
  armTimeout s cp t hs hb := by
    refine ⟨State.CapturesLawful.keptByParts.armTimeout s cp t hs.1 hb,
      .of_headTaken (State.freeBank_headTaken _ t) hs.2.1 (fun x hx => hs.2.2.1 x (List.mem_of_mem_filter hx)) ?_⟩
    rw [State.freeBank_frame]
    exact hs.2.noCaptureWork (by simp [hb])
  torn s p t hs := by
    refine ⟨hs.1.torn p t, ?_⟩
    have hblocks := hs.2.teardownBlocks p
    rcases (s.teardownBlocks p).teardownCapture_cases p t with hc | hc <;> rw [hc]
    · exact hblocks
    · exact State.BankServed.cancel (s := (s.teardownBlocks p).setCapture
        { (s.teardownBlocks p).capture with
          lastFinished := (s.teardownBlocks p).capture.lastFinished.set p none }) hblocks p t
  boundary s t hs hw :=
    ⟨State.CapturesLawful.keptByParts.boundary s t hs.1 hw,
      hs.2.of_eq (s.boundary_capture t) (by rw [s.boundary_conv t])⟩
  slotWork s sl t hs hw _ _ :=
    ⟨hs.1, hs.2.otherWork (State.BankServed.noWork hw) rfl fun w tag pos h hk => by
      obtain rfl := Option.some.inj h
      cases hk⟩
  captureWork s cp pos it t hs hw ho :=
    ⟨State.CapturesLawful.keptByParts.captureWork s cp pos it t hs.1 hw ho, hs.2.takeCaptureWork t hw ho⟩
  demandWork s d t hs hw _ :=
    ⟨hs.1, hs.2.otherWork (State.BankServed.noWork hw) rfl fun w tag pos h hk => by
      obtain rfl := Option.some.inj h
      cases hk⟩
  settle s w hs hw := ⟨State.CapturesLawful.keptByParts.settle s w hs.1 hw, hs.2.settle hw⟩
  lease s p t hs := ⟨State.CapturesLawful.keptByParts.lease s p t hs.1, hs.2⟩
  opening s p rq t hs ho hm := ⟨State.CapturesLawful.keptByParts.opening s p rq t hs.1 ho hm, hs.2⟩
  clearFlags s p hs ho := ⟨State.CapturesLawful.keptByParts.clearFlags s p hs.1 ho, hs.2⟩
  expired s p hs ho := ⟨State.CapturesLawful.keptByParts.expired s p hs.1 ho, hs.2⟩
  pace s p pace hs ho hj := ⟨State.CapturesLawful.keptByParts.pace s p pace hs.1 ho hj, hs.2⟩
  reset s epochs hs :=
    ⟨State.CapturesLawful.keptByParts.reset s epochs hs.1, Nat.zero_le _, nofun, nofun, nofun⟩

/-! ### Records that a reply can carry -/

theorem CaptureValue.bytes_length (v : CaptureValue) : v.bytes.length = 4 := rfl

/-- A record's bytes are as many as its size says (R165). -/
theorem Record.bytes_length (r : Record) : r.bytes.length = r.size := by
  cases r with
  | plan => rfl
  | demand => rfl
  | capture tag trig r extra values =>
    simp only [Record.bytes, Record.size, List.length_append, List.length_flatMap, CaptureValue.bytes_length,
      List.map_const', List.sum_replicate, smul_eq_mul]
    simp [u16]
    omega

namespace State.RecordsFit

variable {s : State}

theorem setResults (hs : s.RecordsFit) {p : Port} {x : ResultQueue}
    (hx : ∀ r ∈ x.records, r.bytes.length ≤ 39) : (s.setResults p x).RecordsFit := fun q => by
  rw [State.setResults_resultsOf]
  split
  · exact hx
  · exact hs q

/-- A queue handed a record holds that record and its own, at most (R103). -/
theorem mem_handRecord {q : ResultQueue} {r x : Record} (h : x ∈ (q.handRecord r).records) :
    x ∈ q.records ∨ x = r := by
  unfold ResultQueue.handRecord at h
  split at h
  · exact .inl h
  · split at h
    · simpa using h
    · exact .inl h

/-- A completion hands over records that fit: the bank capture has at most 8 items (R78, R165). -/
theorem settle (hs : s.RecordsFit) (hb : s.BankServed) (w : Work) :
    ((s.deliverResult w).releaseWork w).RecordsFit := fun p x hx => by
  change x ∈ ((s.deliverResult w).resultsOf p).records at hx
  rcases s.deliverResult_resultsOf w p with h | ⟨r, h, hsize⟩ <;> rw [h] at hx
  · exact hs p x hx
  · rcases mem_handRecord hx with hx | rfl
    · exact hs p x hx
    · rw [Record.bytes_length]
      rcases hsize with h9 | ⟨cp, sampled, values, hbank, hle⟩
      · omega
      · obtain ⟨⟨-, hitems, -⟩, -⟩ := hb.2.2.2 _ _ _ _ hbank
        omega

theorem keptByParts : KeptByParts fun s => s.BankLawful ∧ s.RecordsFit where
  toKeptByBank :=
    { capture := fun s p rq t hs ho hl hj =>
        ⟨State.BankLawful.keptByParts.capture s p rq t hs.1 ho hl hj, by
          rw [State.takeHead_frame]
          exact hs.2⟩
      cancel := fun s p tag t hs hh =>
        ⟨State.BankLawful.keptByParts.cancel s p tag t hs.1 hh, by
          rw [State.cancel_frame]
          exact hs.2⟩
      sample := fun s cp timer t hs hb =>
        ⟨State.BankLawful.keptByParts.sample s cp timer t hs.1 hb, hs.2⟩
      extraEdge := fun s hs => ⟨State.BankLawful.keptByParts.extraEdge s hs.1, hs.2⟩
      armTimeout := fun s cp t hs hb =>
        ⟨State.BankLawful.keptByParts.armTimeout s cp t hs.1 hb, by
          rw [State.freeBank_frame]
          exact hs.2⟩
      torn := fun s p t hs =>
        ⟨State.BankLawful.keptByParts.torn s p t hs.1, by
          rw [State.teardownCapture_frame]
          exact hs.2.setResults nofun⟩ }
  toKeptByClaims := .of_setClaims fun _ _ hs => hs
  boundary s t hs hw :=
    ⟨State.BankLawful.keptByParts.boundary s t hs.1 hw, fun p => by
      rw [State.resultsOf, State.boundary_results]
      exact hs.2 p⟩
  slotWork s sl t hs hw hr hm := ⟨State.BankLawful.keptByParts.slotWork s sl t hs.1 hw hr hm, hs.2⟩
  captureWork s cp pos it t hs hw ho :=
    ⟨State.BankLawful.keptByParts.captureWork s cp pos it t hs.1 hw ho, hs.2⟩
  demandWork s d t hs hw ho := ⟨State.BankLawful.keptByParts.demandWork s d t hs.1 hw ho, hs.2⟩
  settle s w hs hw := ⟨State.BankLawful.keptByParts.settle s w hs.1 hw, hs.2.settle hs.1.2 w⟩
  lease s p t hs := ⟨State.BankLawful.keptByParts.lease s p t hs.1, hs.2⟩
  opening s p rq t hs ho hm :=
    ⟨State.BankLawful.keptByParts.opening s p rq t hs.1 ho hm,
      RecordsFit.setResults (s := s.setSession p _) hs.2 (hs.2 p)⟩
  clearFlags s p hs ho := ⟨State.BankLawful.keptByParts.clearFlags s p hs.1 ho, hs.2⟩
  expired s p hs ho := ⟨State.BankLawful.keptByParts.expired s p hs.1 ho, hs.2⟩
  pace s p pace hs ho hj := ⟨State.BankLawful.keptByParts.pace s p pace hs.1 ho hj, hs.2⟩
  fewerRecords s p k hs := ⟨hs.1, hs.2.setResults fun r hr => hs.2 p r (List.mem_of_mem_drop hr)⟩
  resume s p hs := ⟨hs.1, hs.2.setResults (hs.2 p)⟩
  watermark s p n hs _ _ := ⟨hs.1, hs.2.setResults (hs.2 p)⟩
  reset s epochs hs :=
    ⟨State.BankLawful.keptByParts.reset s epochs hs.1, fun p => by
      rw [State.resultsOf, State.resetPart, PerPort.get_const]
      exact nofun⟩

end State.RecordsFit

end Sys2Proof.Machine
end

section
/-! The statement of the Capture Bank's laws. -/

-- In sequence, as the sections above.
set_option Elab.async false

namespace Sys2Proof

open Machine

/-- Settles O40, by the parts: what the bank takes is fresh, what it takes of a capture is in flight, and what
it hands over is a record of at most 8 values. -/
theorem capturesLawful : Obligations.CapturesLawful := fun _ _ hs hd hstep =>
  ⟨step_keeps_of State.CapturesLawful.keptByParts.operations hs hstep,
    step_keeps_of Bank.DroopJudged.keptByParts.operations hd hstep, fun hb =>
    ⟨(step_keeps_of State.BankLawful.keptByParts.operations ⟨hs, hb⟩ hstep).2, fun hr =>
      (step_keeps_of State.RecordsFit.keptByParts.operations ⟨⟨hs, hb⟩, hr⟩ hstep).2⟩⟩

end Sys2Proof
end

section
/-! SUPPORT. What the other blocks hold under a CLOSED session, and which channels a boundary's plan has
(R26, R33, R128). -/

-- In sequence, as the sections above.
set_option Elab.async false

namespace Sys2Proof.Machine

/-! ### The plan of a boundary -/

/-- A boundary's plan, over claims or over none: each channel's profile with its holders (R32, R33). -/
theorem State.boundary_plan (s : State) (t : Nat) (c : Channel) :
    (s.boundary t).sched.plan.get c = (s.profile c).map fun f => ⟨f, s.claims.holders c⟩ := by
  cases h : s.claims.isEmpty with
  | true =>
    have hc : s.profile c = none :=
      ClaimTable.profile_none.mpr fun p => ClaimTable.isEmpty_iff.mp h p c
    rw [State.boundary_empty t h, hc]
    simp only [State.stopScheduler, PerChannel.get_const, Option.map_none]
  | false =>
    rw [State.boundary_nonempty t h, ← s.snapshot_get]
    simp only [State.takeSnapshot, Scheduler.startRound]

/-- A session without a claim has no change event at a boundary (R34). -/
theorem State.changesFor_none {s : State} {p : Port} (h : ∀ c, s.claimOf p c = none) :
    s.changesFor p = [] := by
  have hprofile : ∀ c, s.profileChangeFor p c = none := fun c => by
    unfold State.profileChangeFor
    rw [h c]
    split <;> simp
  have hholds : s.claims.holdsClaim p = false := by
    simpa [ClaimTable.holdsClaim, State.claimOf] using fun c _ => h c
  have hpace : s.paceChangeFor p = [] := by
    unfold State.paceChangeFor
    split <;> simp [hholds]
  rw [State.changesFor, hpace, List.append_nil, List.filterMap_eq_nil_iff]
  exact fun c _ => hprofile c

theorem State.takeHead_lastFinished (s : State) (t : Nat) :
    (s.takeHead t).capture.lastFinished = s.capture.lastFinished := by
  by_cases hb : s.capture.bank = .free
  · rw [State.takeHead_eq_freeBank t hb, State.freeBank_lastFinished]
  · rw [State.takeHead_other t (.inl hb)]

theorem State.cancel_lastFinished (s : State) (p : Port) (t : Nat) :
    (s.cancel p t).capture.lastFinished = s.capture.lastFinished := by
  rcases s.cancel_cases p t with ⟨hc, -⟩ | ⟨cp, sampled, values, -, -, -, hc⟩ | ⟨-, hc⟩ <;> rw [hc]
  · rfl
  · rfl
  · rw [State.freeBank_lastFinished]; rfl

theorem State.torn_lastFinished (s : State) (p : Port) (t : Nat) :
    ((s.teardownBlocks p).teardownCapture p t).capture.lastFinished =
      s.capture.lastFinished.set p none := by
  rcases (s.teardownBlocks p).teardownCapture_cases p t with hc | hc <;> rw [hc]
  · rfl
  · rw [State.cancel_lastFinished]; rfl

/-! ### Nothing held -/

namespace State.HoldsNothing

variable {s u : State} {p : Port}

/-- What other sessions' parts become, and what leaves the blocks, gives a session nothing. -/
theorem mono (h : s.HoldsNothing p)
    (hclaims : ∀ c, s.claimOf p c = none → u.claimOf p c = none := by exact fun _ h => h)
    (hdemand : ∀ d ∈ u.demand.entries, d.session = p → d ∈ s.demand.entries := by exact fun _ h _ => h)
    (hlist : ∀ cp ∈ u.capture.list, cp.session = p → cp ∈ s.capture.list := by exact fun _ h _ => h)
    (hresults : u.resultsOf p = s.resultsOf p := by rfl)
    (hevents : u.eventsOf p = s.eventsOf p := by rfl)
    (hfinished : u.capture.lastFinished.get p = s.capture.lastFinished.get p := by rfl)
    (hplan : ∀ c e, u.sched.plan.get c = some e →
      e.holders.get p = false ∨ ∃ e', s.sched.plan.get c = some e' ∧ e'.holders.get p = e.holders.get p := by
        exact fun _ e h => .inr ⟨e, h, rfl⟩) : u.HoldsNothing p := by
  obtain ⟨hc, hd, hl, hrec, hlapsed, hlost, hev, hevlost, hf, hp⟩ := h
  refine ⟨fun c => hclaims c (hc c), fun d hm hs => hd d (hdemand d hm hs) hs,
    fun cp hm hs => hl cp (hlist cp hm hs) hs, by rw [hresults, hrec], by rw [hresults, hlapsed],
    by rw [hresults, hlost], by rw [hevents, hev], by rw [hevents, hevlost], by rw [hfinished, hf],
    fun c e he => ?_⟩
  rcases hplan c e he with h | ⟨e', he', h⟩
  · exact h
  · rw [← h]
    exact hp c e' he'

/-- A session without a claim receives no value (R63). -/
theorem receiver (h : s.HoldsNothing p) (w : Work) : s.receiver p w = none := by
  rw [State.receiver, h.1]
  rfl

theorem boundary (h : s.HoldsNothing p) (t : Nat) : (s.boundary t).HoldsNothing p := by
  refine h.mono (fun c hc => ?_) (fun d hd _ => ?_) (fun cp hcp _ => ?_) ?_ ?_ ?_ (fun c e he => .inl ?_)
  · rw [State.claimOf, State.boundary_claims, ← State.claimOf, hc]
    rfl
  · rwa [State.boundary_demand] at hd
  · rwa [State.boundary_capture] at hcp
  · rw [State.resultsOf, State.boundary_results]
    rfl
  · rw [State.boundary_eventsOf, State.changesFor_none h.1]
    rfl
  · rw [State.boundary_capture]
  · rw [State.boundary_plan, Option.map_eq_some_iff] at he
    obtain ⟨f, -, rfl⟩ := he
    simp [State.holders_get, h.1 c]

/-- A result goes to the sessions that hold the claim, the demand or the capture it is for (R58). -/
theorem deliverResult (h : s.HoldsNothing p) {w : Work}
    (hdemand : ∀ tag, w.kind ≠ .demand tag p false)
    (hbank : ∀ cp sampled values, s.capture.bank = .holding cp false sampled values → cp.session ≠ p) :
    (s.deliverResult w).HoldsNothing p := by
  cases hk : w.kind with
  | plan slot =>
    rw [State.deliverResult_plan hk]
    obtain ⟨hresults, hevents, hclaims⟩ := s.deliverPlan_spec w slot
    have hr := h.receiver w
    have hq : s.queueAfter p w slot = s.resultsOf p := by rw [State.queueAfter, hr]
    have he : s.windowEventFor p w = [] := by rw [State.windowEventFor, hr]
    refine h.mono (fun c hc => ?_) (fun d hd _ => ?_) (fun cp hcp _ => ?_) ((hresults p).trans hq) ?_ ?_
      (fun c e hp => .inr ⟨e, ?_, rfl⟩)
    · rw [hclaims, hr, hc]
      split <;> rfl
    · rwa [State.deliverPlan_frame] at hd
    · rwa [State.deliverPlan_frame] at hcp
    · rw [hevents, he]
      rfl
    · rw [State.deliverPlan_frame]
    · rwa [State.deliverPlan_frame] at hp
  | demand tag q gone =>
    rw [State.deliverResult_demand hk, State.deliverDemand]
    cases gone with
    | true => exact h.mono
    | false =>
      have hne : p ≠ q := fun e => hdemand tag (e ▸ hk)
      exact h.mono (hresults := State.setResults_resultsOf_ne _ _ _ hne)
  | capture tag pos =>
    rw [State.deliverResult_capture hk]
    rcases s.receiveCaptureValue_cases pos (s.workCode w) (s.workClip w) w.finish with
      ⟨-, hc⟩ | ⟨cp, cancelled, sampled, values, hb, ⟨-, hc⟩ | ⟨-, -, hc⟩ | ⟨rfl, -, hc⟩⟩ <;> rw [hc]
    · exact h
    · have hlist := (s.freeBank_headTaken w.finish).list
      rw [State.freeBank_frame]
      refine h.mono (hlist := fun cp hcp _ => ?_) (hfinished := ?_)
      · rwa [State.setCapture_capture, hlist] at hcp
      · rw [State.setCapture_capture, State.freeBank_lastFinished]
    · exact h.mono
    · have hne : p ≠ cp.session := (hbank cp sampled values hb).symm
      unfold State.completeCapture
      dsimp only
      rw [State.freeBank_frame]
      refine h.mono (hlist := fun x hx _ => ?_) (hresults := State.setResults_resultsOf_ne _ _ _ hne)
        (hfinished := ?_)
      · rw [State.setCapture_capture, (State.freeBank_headTaken _ _).list] at hx
        exact List.mem_of_mem_filter hx
      · rw [State.setCapture_capture, State.freeBank_lastFinished]
        exact PerPort.get_set_ne _ _ hne

/-- A teardown leaves the blocks holding nothing under its session (R134). -/
theorem torn_self (s : State) (p : Port) (t : Nat) :
    ((s.teardownBlocks p).teardownCapture p t).HoldsNothing p := by
  have hlist := s.torn_list p t
  have hfinished := s.torn_lastFinished p t
  rw [State.teardownCapture_frame]
  refine ⟨fun c => ?_, fun d hd => ?_, fun cp hcp => ?_, ?_, ?_, ?_, ?_, ?_, ?_, fun c e he => ?_⟩
  · exact (ClaimTable.get_removeSession s.claims p p c).trans (if_pos rfl)
  · simpa using (List.mem_filter.mp hd).2
  · rw [State.setCapture_capture, hlist] at hcp
    simpa using (List.mem_filter.mp hcp).2
  · exact congrArg ResultQueue.records (PerPort.get_set_self s.results p _)
  · exact congrArg ResultQueue.lapsed (PerPort.get_set_self s.results p _)
  · exact congrArg ResultQueue.lost (PerPort.get_set_self s.results p _)
  · exact congrArg EventQueue.events (PerPort.get_set_self s.events p _)
  · exact congrArg EventQueue.lost (PerPort.get_set_self s.events p _)
  · rw [State.setCapture_capture, hfinished, PerPort.get_set_self]
  · simp only [State.setCapture_sched, State.teardownBlocks, removeHolder, PerChannel.get_tabulate,
      Option.map_eq_some_iff] at he
    obtain ⟨e, -, rfl⟩ := he
    exact PerPort.get_set_self _ _ _

/-- A reset leaves the blocks empty (R24, R66, R76, R96, R113, R127). -/
theorem reset (s : State) (epochs : PerPort Epoch) (p : Port) : (s.resetPart epochs).HoldsNothing p := by
  refine ⟨fun c => ClaimTable.get_empty p c, nofun, nofun, ?_, ?_, ?_, ?_, ?_, PerPort.get_const _ _,
    fun c e he => ?_⟩
  · exact congrArg ResultQueue.records (PerPort.get_const _ p)
  · exact congrArg ResultQueue.lapsed (PerPort.get_const _ p)
  · exact congrArg ResultQueue.lost (PerPort.get_const _ p)
  · exact congrArg EventQueue.events (PerPort.get_const _ p)
  · exact congrArg EventQueue.lost (PerPort.get_const _ p)
  · have hnone : (s.resetPart epochs).sched.plan.get c = none := PerChannel.get_const _ c
    rw [hnone] at he
    cases he

theorem torn_other (h : s.HoldsNothing p) {q : Port} (hq : p ≠ q) (t : Nat) :
    ((s.teardownBlocks q).teardownCapture q t).HoldsNothing p := by
  have hlist := s.torn_list q t
  have hfinished := s.torn_lastFinished q t
  rw [State.teardownCapture_frame]
  refine h.mono (fun c hc => ?_) (fun d hd _ => List.mem_of_mem_filter hd) (fun cp hcp _ => ?_)
    (PerPort.get_set_ne s.results _ hq) (PerPort.get_set_ne s.events _ hq) ?_ (fun c e he => .inr ?_)
  · exact (ClaimTable.get_removeSession s.claims q p c).trans ((if_neg hq).trans hc)
  · rw [State.setCapture_capture, hlist] at hcp
    exact List.mem_of_mem_filter hcp
  · rw [State.setCapture_capture, hfinished, PerPort.get_set_ne _ _ hq]
  · simp only [State.setCapture_sched, State.teardownBlocks, removeHolder, PerChannel.get_tabulate,
      Option.map_eq_some_iff] at he
    obtain ⟨e, he, rfl⟩ := he
    exact ⟨e, he, (PerPort.get_set_ne _ _ hq).symm⟩

end State.HoldsNothing

/-- A teardown leaves of a demand of its session one whose requester is gone (R59). -/
theorem Work.teardown_demand {w : Work} {p q : Port} {tag : Tag}
    (h : (w.teardown p).kind = .demand tag q false) : w.kind = .demand tag q false ∧ q ≠ p := by
  unfold Work.teardown at h
  split at h
  · rename_i tag' session gone hk
    split at h
    · cases h
    · rename_i hne
      injection h with h1 h2 h3
      subst h1 h2 h3
      exact ⟨hk, hne⟩
  · rename_i hk
    rw [hk] at h
    cases h
  · rename_i hk
    rw [hk] at h
    cases h

namespace State.ClosedHoldNothing

variable {s u : State}

/-- A block written for a session that is OPEN, or for none. -/
theorem of_holdsNothing (hs : s.ClosedHoldNothing) (hc : u.CapturesLawful) (hr : u.RequesterOpen)
    (ho : ∀ p, u.sessionOpen p = false → s.sessionOpen p = false)
    (hn : ∀ p, s.sessionOpen p = false → s.HoldsNothing p → u.HoldsNothing p) : u.ClosedHoldNothing :=
  ⟨hc, hr, fun p hp => hn p (ho p hp) (hs.2.2 p (ho p hp))⟩

/-- The Capture Bank written: listed captures are of open sessions by its own law. -/
theorem setCapture (hs : s.ClosedHoldNothing) {x : CaptureBank} (hc : (s.setCapture x).CapturesLawful)
    (hf : ∀ p, s.sessionOpen p = false → x.lastFinished.get p = s.capture.lastFinished.get p) :
    (s.setCapture x).ClosedHoldNothing :=
  hs.of_holdsNothing hc hs.2.1 (fun _ h => h) fun p hp h =>
    h.mono (hlist := fun cp hcp hcs => by
      have hopen : s.sessionOpen cp.session = true := hc.2.2.1 cp hcp
      rw [hcs, hp] at hopen
      cases hopen) (hfinished := hf p hp)

/-- One session record written, its session OPEN as before or opened. -/
theorem setSession (hs : s.ClosedHoldNothing) {p : Port} {x : Session}
    (hx : s.sessionOpen p = true → x.isOpen = true) : (s.setSession p x).ClosedHoldNothing := by
  have hopen : ∀ q, s.sessionOpen q = true → (s.setSession p x).sessionOpen q = true := fun q hq => by
    rw [State.sessionOpen, State.setSession_sessionOf]
    split
    · rename_i hqp
      exact hx (hqp ▸ hq)
    · exact hq
  refine hs.of_holdsNothing (hs.1.setSession hx) (fun w tag q hw hk => hopen q (hs.2.1 w tag q hw hk))
    (fun q hq => ?_) fun q _ h => h.mono
  by_contra hne
  rw [hopen q (by simpa using hne)] at hq
  cases hq

/-- A result queue written to say nothing where it said nothing. -/
theorem setResults (hs : s.ClosedHoldNothing) {p : Port} {x : ResultQueue}
    (hx : s.sessionOpen p = false → x.records = [] ∧ x.lapsed = false ∧ x.lost = 0) :
    (s.setResults p x).ClosedHoldNothing := by
  refine hs.of_holdsNothing hs.1 hs.2.1 (fun _ h => h) fun q hq h => ?_
  by_cases hqp : q = p
  · subst hqp
    obtain ⟨hrec, hlapsed, hlost⟩ := hx hq
    obtain ⟨hc, hd, hl, -, -, -, hrest⟩ := h
    have hself : (s.setResults q x).resultsOf q = x := State.setResults_resultsOf_self _ _ _
    exact ⟨hc, hd, hl, by rw [hself, hrec], by rw [hself, hlapsed], by rw [hself, hlost], hrest⟩
  · exact h.mono (hresults := State.setResults_resultsOf_ne _ _ _ hqp)

theorem setClaims (hs : s.ClosedHoldNothing) {x : ClaimTable}
    (hx : ∀ p c, s.sessionOpen p = false → s.claimOf p c = none → x.get p c = none) :
    (s.setClaims x).ClosedHoldNothing :=
  hs.of_holdsNothing hs.1 hs.2.1 (fun _ h => h) fun p hp h => h.mono (fun c hc => hx p c hp hc)

/-- An event handed to a session that is OPEN. -/
theorem handEvent (hs : s.ClosedHoldNothing) {p : Port} (e : Event) (ho : s.sessionOpen p = true) :
    (s.handEvent p e).ClosedHoldNothing :=
  hs.of_holdsNothing hs.1 hs.2.1 (fun _ h => h) fun q hq h =>
    h.mono (hevents := State.setEvents_eventsOf_ne _ _ _ fun he => by
      rw [he, ho] at hq
      cases hq)

/-- A session that holds something is OPEN. -/
theorem open_of_not_holdsNothing (hs : s.ClosedHoldNothing) {p : Port} (h : ¬s.HoldsNothing p) :
    s.sessionOpen p = true := by
  by_contra hc
  exact h (hs.2.2 p (by simpa using hc))

theorem torn (hs : s.ClosedHoldNothing) (p : Port) (t : Nat) :
    ((s.teardownBlocks p).teardownCapture p t).ClosedHoldNothing := by
  have hsession : ∀ q, q ≠ p →
      ((s.teardownBlocks p).teardownCapture p t).sessionOpen q = s.sessionOpen q := fun q hq => by
    rw [State.teardownCapture_frame]
    exact congrArg Session.isOpen (PerPort.get_set_ne s.sessions _ hq)
  refine ⟨hs.1.torn p t, fun w tag q hw hk => ?_, fun q hq => ?_⟩
  · rw [State.teardownCapture_frame] at hw
    obtain ⟨w', hw', rfl⟩ := Option.map_eq_some_iff.mp hw
    obtain ⟨hk', hq⟩ := Work.teardown_demand hk
    rw [hsession q hq]
    exact hs.2.1 w' tag q hw' hk'
  · by_cases hqp : q = p
    · subst hqp
      exact .torn_self s q t
    · rw [hsession q hqp] at hq
      exact (hs.2.2 q hq).torn_other hqp t

theorem settle (hs : s.ClosedHoldNothing) {w : Work} (hw : s.conv.work = some w) :
    ((s.deliverResult w).releaseWork w).ClosedHoldNothing := by
  have hsession : (s.deliverResult w).sessions = s.sessions := by rw [State.deliverResult_frame]
  have hopen : ∀ p, ((s.deliverResult w).releaseWork w).sessionOpen p = s.sessionOpen p := fun p => by
    change ((s.deliverResult w).sessions.get p).isOpen = _
    rw [hsession]
    rfl
  refine hs.of_holdsNothing (State.CapturesLawful.keptByParts.settle s w hs.1 hw) nofun
    (fun p hp => (hopen p).symm.trans hp) fun p hp h => ?_
  have hd : (s.deliverResult w).HoldsNothing p := by
    refine h.deliverResult (fun tag hk => ?_) fun cp sampled values hb he => ?_
    · have := hs.2.1 w tag p hw hk
      rw [hp] at this
      cases this
    · have hmem := List.mem_of_mem_head? ((hs.1.agrees.holding_head hb).2 rfl)
      have := hs.1.listed_open cp hmem
      rw [he, hp] at this
      cases this
  exact hd.mono

theorem keptByParts : KeptByParts State.ClosedHoldNothing where
  capture s p rq t hs ho hl hj := by
    have hc := State.CapturesLawful.keptByParts.capture s p rq t hs.1 ho hl hj
    have hf := (s.queueCapture (rq.entry p s.capture.nextTag)).takeHead_lastFinished t
    rw [State.takeHead_frame] at hc ⊢
    exact hs.setCapture hc fun q _ => by
      rw [hf]
      rfl
  cancel s p tag t hs hh := by
    have hc := State.CapturesLawful.keptByParts.cancel s p tag t hs.1 hh
    have hf := s.cancel_lastFinished p t
    rw [State.cancel_frame] at hc ⊢
    exact hs.setCapture hc fun q _ => by rw [hf]
  sample s cp timer t hs hb :=
    hs.setCapture (State.CapturesLawful.keptByParts.sample s cp timer t hs.1 hb) fun _ _ => rfl
  extraEdge s hs := hs.setCapture (State.CapturesLawful.keptByParts.extraEdge s hs.1) fun _ _ => rfl
  armTimeout s cp t hs hb := by
    have hc := State.CapturesLawful.keptByParts.armTimeout s cp t hs.1 hb
    have hopen : s.sessionOpen cp.session = true := hs.1.listed_open cp (hs.1.agrees.armed_mem hb)
    rw [State.freeBank_frame] at hc ⊢
    refine hs.setCapture hc fun q hq => ?_
    rw [State.freeBank_lastFinished]
    refine PerPort.get_set_ne _ _ fun he => ?_
    rw [he, hopen] at hq
    cases hq
  torn s p t hs := hs.torn p t
  skip s c hs := hs.setClaims fun p d _ hc => by
    rw [ClaimTable.get_mapCells, ← State.claimOf, hc]
    rfl
  candidate s p rq hs ho _ _ := hs.setClaims fun q c hq hc => by
    rw [ClaimTable.candidate, ClaimTable.get_set]
    split
    · rename_i h
      rw [h.1, ho] at hq
      cases hq
    · exact hc
  release s p c hs := hs.setClaims fun q d _ hc => by
    rw [ClaimTable.get_set]
    split
    · rfl
    · exact hc
  sched s x hs hx :=
    hs.of_holdsNothing hs.1 hs.2.1 (fun _ h => h) fun p _ h =>
      h.mono (hplan := fun c e he => .inr ⟨e, hx.plan ▸ he, rfl⟩)
  boundary s t hs hw := by
    refine hs.of_holdsNothing (State.CapturesLawful.keptByParts.boundary s t hs.1 hw) (fun w tag p hw hk => ?_)
      (fun p hp => ?_) fun p _ h => h.boundary t
    · rw [State.boundary_conv] at hw
      rw [State.sessionOpen, State.sessionOf, State.boundary_sessions]
      exact hs.2.1 w tag p hw hk
    · rw [State.sessionOpen, State.sessionOf, State.boundary_sessions] at hp
      exact hp
  event s p e hs h := by
    refine hs.handEvent e (hs.open_of_not_holdsNothing fun hn => ?_)
    rcases h with h | h
    · obtain ⟨c, cl, hc⟩ := ClaimTable.holdsClaim_iff.mp h
      exact absurd (hn.1 c) (by simp [State.claimOf, hc])
    · obtain ⟨-, -, -, -, -, -, -, -, hf, -⟩ := hn
      exact h hf
  slotWork s sl t hs _ _ _ :=
    hs.of_holdsNothing hs.1 (fun w tag p hw hk => by
      obtain rfl := Option.some.inj hw
      cases hk) (fun _ h => h) fun p _ h => h.mono
  captureWork s cp pos it t hs hw ho :=
    hs.of_holdsNothing (State.CapturesLawful.keptByParts.captureWork s cp pos it t hs.1 hw ho)
      (fun w tag p hw hk => by
        obtain rfl := Option.some.inj hw
        cases hk) (fun _ h => h) fun p _ h => h.mono
  demandWork s d t hs _ ho := by
    refine hs.of_holdsNothing hs.1 (fun w tag p hw hk => ?_) (fun _ h => h) fun p _ h =>
      h.mono (hdemand := fun x hx _ => List.mem_of_mem_erase hx)
    obtain rfl := Option.some.inj hw
    injection hk with _ hp _
    subst hp
    exact hs.open_of_not_holdsNothing fun hn => hn.2.1 d (State.demandOffer_mem ho) rfl
  settle s w hs hw := hs.settle hw
  lease s p t hs := hs.setSession fun h => by
    unfold Session.restartLease
    split <;> exact h
  opening s p rq t hs _ _ :=
    (hs.setSession (x := (s.sessionOf p).opened rq t) fun _ => rfl).setResults fun h => by
      simp [State.sessionOpen, Session.opened] at h
  clearFlags s p hs _ := hs.setSession fun h => h
  expired s p hs _ := hs.setSession fun h => h
  pace s p pace hs _ _ := hs.setSession fun h => h
  demand s p rq hs ho _ :=
    hs.of_holdsNothing hs.1 hs.2.1 (fun _ h => h) fun q hq h => h.mono (hdemand := fun d hd he => by
      rcases List.mem_append.mp hd with hd | hd
      · exact hd
      · obtain rfl := List.mem_singleton.mp hd
        obtain rfl : p = q := he
        rw [ho] at hq
        cases hq)
  fewerRecords s p k hs := hs.setResults fun hp => by
    obtain ⟨-, -, -, hrec, hlapsed, hlost, -⟩ := hs.2.2 p hp
    exact ⟨by simp [hrec], hlapsed, hlost⟩
  resume s p hs := hs.setResults fun hp => by
    obtain ⟨-, -, -, hrec, -⟩ := hs.2.2 p hp
    exact ⟨hrec, rfl, rfl⟩
  watermark s p n hs _ _ := hs.setResults fun hp => by
    obtain ⟨-, -, -, hrec, hlapsed, hlost, -⟩ := hs.2.2 p hp
    exact ⟨hrec, hlapsed, hlost⟩
  fewerEvents s p n hs := by
    refine hs.of_holdsNothing hs.1 hs.2.1 (fun _ h => h) fun q hq h => ?_
    by_cases hqp : q = p
    · subst hqp
      refine h.mono (hevents := ?_)
      obtain ⟨-, -, -, -, -, -, hev, hlost, -⟩ := h
      rw [State.setEvents_eventsOf_self, hev, List.drop_nil, ← hev, ← hlost]
    · exact h.mono (hevents := State.setEvents_eventsOf_ne _ _ _ hqp)
  reset s epochs hs := ⟨State.CapturesLawful.keptByParts.reset s epochs hs.1, nofun, fun p _ => .reset s epochs p⟩

end State.ClosedHoldNothing

end Sys2Proof.Machine
end

section
/-! The statement that a CLOSED session holds nothing. -/

-- In sequence, as the sections above.
set_option Elab.async false

namespace Sys2Proof

open Machine

/-- Settles O51, by the parts: a block is written for a session that is OPEN, and a teardown takes what its
session held. -/
theorem closedSessionsHoldNothing : Obligations.ClosedSessionsHoldNothing := fun _ _ hs hstep =>
  step_keeps_of State.ClosedHoldNothing.keptByParts.operations hs hstep

end Sys2Proof
end

section
/-! SUPPORT. Channel profiles as merged from the claims, and the due rounds of claims and profiles (R5, R6, R36,
R37). -/

-- In sequence, as the sections above.
set_option Elab.async false

namespace Sys2Proof.Machine

/-! ### Merging (R6) -/

/-- A profile asks at least what another asks: no lower resolution, HOLD and priority if the other has them, and
no longer period. -/
structure Profile.Covers (f g : Profile) : Prop where
  resolution : resolutionBits g.resolution ≤ resolutionBits f.resolution
  hold : g.hold = .hold → f.hold = .hold
  period : periodRounds f.period ≤ periodRounds g.period
  priority : g.priority = true → f.priority = true

theorem Profile.Covers.refl (f : Profile) : f.Covers f :=
  ⟨le_rfl, id, le_rfl, id⟩

theorem Profile.Covers.trans {f g h : Profile} (hfg : f.Covers g) (hgh : g.Covers h) : f.Covers h :=
  ⟨hgh.resolution.trans hfg.resolution, hfg.hold ∘ hgh.hold, hfg.period.trans hgh.period,
    hfg.priority ∘ hgh.priority⟩

theorem Profile.merge_covers (f : Profile) (cl : Claim) :
    (f.merge cl).Covers f ∧ (f.merge cl).Covers cl.profile := by
  have hres : resolutionBits f.resolution ≤ resolutionBits (maxResolution f.resolution cl.terms.resolution) ∧
      resolutionBits cl.terms.resolution ≤
        resolutionBits (maxResolution f.resolution cl.terms.resolution) := by
    unfold maxResolution
    split <;> omega
  have hper : periodRounds (minPeriod f.period cl.terms.period) ≤ periodRounds f.period ∧
      periodRounds (minPeriod f.period cl.terms.period) ≤ periodRounds cl.terms.period := by
    unfold minPeriod
    split <;> omega
  have hhold : (f.hold = .hold → mergeHold f.hold cl.terms.hold = .hold) ∧
      (cl.terms.hold = .hold → mergeHold f.hold cl.terms.hold = .hold) := by
    cases f.hold <;> simp [mergeHold]
  exact ⟨⟨hres.1, hhold.1, hper.1, fun h => by simp [Profile.merge, h]⟩,
    ⟨hres.2, hhold.2, hper.2, fun h => by simp [Profile.merge, show cl.terms.priority = true from h]⟩⟩

theorem foldl_merge_covers (l : List Claim) (f : Profile) :
    (l.foldl Profile.merge f).Covers f ∧ ∀ cl ∈ l, (l.foldl Profile.merge f).Covers cl.profile := by
  induction l generalizing f with
  | nil => exact ⟨.refl f, by simp⟩
  | cons cl l ih =>
    obtain ⟨hf, hl⟩ := ih (f.merge cl)
    obtain ⟨hmf, hmc⟩ := f.merge_covers cl
    rw [List.foldl_cons]
    exact ⟨hf.trans hmf, List.forall_mem_cons.mpr ⟨hf.trans hmc, hl⟩⟩

/-- A field that one merge takes from the profile or from the claim, a run of merges takes from the profile or
from one of the claims. -/
theorem foldl_merge_field {α : Type} (g : Profile → α)
    (hg : ∀ f cl, g (Profile.merge f cl) = g f ∨ g (Profile.merge f cl) = g cl.profile) (l : List Claim)
    (f : Profile) :
    g (l.foldl Profile.merge f) = g f ∨ ∃ cl ∈ l, g cl.profile = g (l.foldl Profile.merge f) := by
  induction l generalizing f with
  | nil => exact .inl rfl
  | cons cl l ih =>
    rw [List.foldl_cons]
    rcases ih (f.merge cl) with h | ⟨x, hx, h⟩
    · rw [h]
      rcases hg f cl with h' | h'
      · exact .inl h'
      · exact .inr ⟨cl, List.mem_cons_self, h'.symm⟩
    · exact .inr ⟨x, List.mem_cons_of_mem _ hx, h⟩

theorem Profile.merge_resolution (f : Profile) (cl : Claim) :
    (f.merge cl).resolution = f.resolution ∨ (f.merge cl).resolution = cl.profile.resolution := by
  simp only [Profile.merge, maxResolution]
  split
  · exact .inr rfl
  · exact .inl rfl

theorem Profile.merge_hold (f : Profile) (cl : Claim) :
    (f.merge cl).hold = f.hold ∨ (f.merge cl).hold = cl.profile.hold := by
  cases hf : f.hold <;> simp [Profile.merge, mergeHold, hf, Claim.profile]

theorem Profile.merge_period (f : Profile) (cl : Claim) :
    (f.merge cl).period = f.period ∨ (f.merge cl).period = cl.profile.period := by
  simp only [Profile.merge, minPeriod]
  split
  · exact .inr rfl
  · exact .inl rfl

theorem Profile.merge_priority (f : Profile) (cl : Claim) :
    (f.merge cl).priority = f.priority ∨ (f.merge cl).priority = cl.profile.priority := by
  cases hf : f.priority <;> simp [Profile.merge, hf, Claim.profile]

namespace ClaimTable

variable {ct : ClaimTable} {p : Port} {c : Channel} {cl : Claim} {f : Profile}

/-- A channel's profile covers every claim on it (R6). -/
theorem profile_covers (hf : ct.profile c = some f) (hcl : ct.get p c = some cl) : f.Covers cl.profile := by
  have hm : cl ∈ ct.onChannel c := ClaimTable.mem_onChannel.mpr ⟨p, hcl⟩
  rw [ClaimTable.profile] at hf
  generalize ct.onChannel c = l at hf hm
  cases l with
  | nil => cases hm
  | cons x l =>
    obtain rfl := Option.some.inj hf
    obtain ⟨hx, hl⟩ := foldl_merge_covers l x.profile
    rcases List.mem_cons.mp hm with rfl | hm
    · exact hx
    · exact hl cl hm

/-- Each field of a channel's profile is that of some claim on it (R6). -/
theorem profile_field {α : Type} (g : Profile → α)
    (hg : ∀ f cl, g (Profile.merge f cl) = g f ∨ g (Profile.merge f cl) = g cl.profile)
    (hf : ct.profile c = some f) : ∃ p cl, ct.get p c = some cl ∧ g cl.profile = g f := by
  have hmem : ∃ cl ∈ ct.onChannel c, g cl.profile = g f := by
    rw [ClaimTable.profile] at hf
    generalize ct.onChannel c = l at hf
    cases l with
    | nil => cases hf
    | cons x l =>
      obtain rfl := Option.some.inj hf
      rcases foldl_merge_field g hg l x.profile with h | ⟨cl, hcl, h⟩
      · exact ⟨x, List.mem_cons_self, h.symm⟩
      · exact ⟨cl, List.mem_cons_of_mem _ hcl, h⟩
  obtain ⟨cl, hcl, h⟩ := hmem
  obtain ⟨p, hp⟩ := ClaimTable.mem_onChannel.mp hcl
  exact ⟨p, cl, hp, h⟩

theorem isPriority_eq (ct : ClaimTable) (c : Channel) :
    ct.isPriority c = (ct.profile c).any fun f => f.priority := by
  unfold ClaimTable.isPriority
  cases ct.profile c <;> rfl

theorem isNormal_eq_any (ct : ClaimTable) (c : Channel) :
    ct.isNormal c = (ct.profile c).any fun f => !f.priority := by
  unfold ClaimTable.isNormal
  cases ct.profile c <;> rfl

theorem isClaimed_eq (ct : ClaimTable) (c : Channel) : ct.isClaimed c = (ct.profile c).isSome := by
  unfold ClaimTable.isClaimed ClaimTable.profile
  cases ct.onChannel c <;> rfl

theorem profileCost_eq (ct : ClaimTable) (c : Channel) :
    ct.profileCost c = (ct.profile c).elim 0 fun f => cost f.resolution f.hold := by
  unfold ClaimTable.profileCost
  cases ct.profile c <;> rfl

/-- The greatest of a list of numbers and 0 is one of them, or there is none. -/
theorem foldl_max_mem (l : List Nat) (a : Nat) : l.foldl max a = a ∨ l.foldl max a ∈ l := by
  induction l generalizing a with
  | nil => exact .inl rfl
  | cons x l ih =>
    rw [List.foldl_cons]
    rcases ih (max a x) with h | h
    · rw [h]
      rcases max_choice a x with h' | h' <;> simp [h']
    · exact .inr (List.mem_cons_of_mem _ h)

/-- The worst cost of a claimed channel is the cost of one of its claims (R11). -/
theorem worstCost_mem (h : ct.get p c = some cl) :
    ∃ q cl', ct.get q c = some cl' ∧ cl'.cost = ct.worstCost c := by
  rcases foldl_max_mem ((ct.onChannel c).map Claim.cost) 0 with h0 | hm
  · refine ⟨p, cl, h, ?_⟩
    have hle := ClaimTable.cost_le_worstCost h
    rw [ClaimTable.worstCost, h0] at hle ⊢
    omega
  · obtain ⟨cl', hcl', hcost⟩ := List.mem_map.mp hm
    obtain ⟨q, hq⟩ := ClaimTable.mem_onChannel.mp hcl'
    exact ⟨q, cl', hq, hcost⟩

theorem worstCost_eq_zero (h : ∀ p, ct.get p c = none) : ct.worstCost c = 0 :=
  ClaimTable.worstCost_free (by
    rw [ClaimTable.isClaimed_eq, ClaimTable.profile_none.mpr h]
    rfl)

end ClaimTable

theorem allChannels_eq_finRange : allChannels = List.finRange 16 := rfl

/-! ### Due rounds (R36, R37) -/

theorem dueInRound_iff {period : Period} {c : Channel} {r : RoundNumber} :
    dueInRound period c r = true ↔ r.toNat % periodRounds period = c.val % periodRounds period :=
  beq_iff_eq

/-- Every period divides the count of round numbers, so phases go on across the wrap (R36). -/
theorem periodRounds_dvd (period : Period) : periodRounds period ∣ 2 ^ 16 := by
  cases period <;> decide

theorem periodRounds_le (period : Period) : periodRounds period ≤ 16 := by
  cases period <;> decide

/-- Of two periods the shorter divides the longer (Table 10-1). -/
theorem periodRounds_dvd_of_le {x y : Period} (h : periodRounds x ≤ periodRounds y) :
    periodRounds x ∣ periodRounds y := by
  revert h
  cases x <;> cases y <;> decide

/-- The phase of a round number some rounds on. -/
theorem toNat_add_mod_period (period : Period) (r : RoundNumber) {k : Nat} (hk : k ≤ 16) :
    (r + BitVec.ofNat 16 k).toNat % periodRounds period = (r.toNat + k) % periodRounds period := by
  rw [BitVec.toNat_add, BitVec.toNat_ofNat, Nat.mod_eq_of_lt (a := k) (by omega),
    Nat.mod_mod_of_dvd _ (periodRounds_dvd period)]

theorem dueInRound_add_period (period : Period) (c : Channel) (r : RoundNumber) :
    dueInRound period c (r + BitVec.ofNat 16 (periodRounds period)) = dueInRound period c r := by
  unfold dueInRound
  rw [toNat_add_mod_period period r (periodRounds_le period), Nat.add_mod_right]

theorem dueInRound_add_lt {period : Period} {c : Channel} {r : RoundNumber} {k : Nat} (h0 : 0 < k)
    (hk : k < periodRounds period) (hdue : dueInRound period c r = true) :
    dueInRound period c (r + BitVec.ofNat 16 k) = false := by
  rw [← Bool.not_eq_true, dueInRound_iff, toNat_add_mod_period period r (by have := periodRounds_le period; omega),
    ← dueInRound_iff.mp hdue]
  intro h
  have hdvd : periodRounds period ∣ k := by
    have := (Nat.modEq_iff_dvd' (Nat.le_add_right r.toNat k)).mp h.symm
    rwa [Nat.add_sub_cancel_left] at this
  exact absurd (Nat.le_of_dvd h0 hdvd) (by omega)

/-- A round due under a period is due under each shorter one (R5). -/
theorem dueInRound_of_le {x y : Period} {c : Channel} {r : RoundNumber}
    (h : periodRounds x ≤ periodRounds y) (hdue : dueInRound y c r = true) : dueInRound x c r = true := by
  have hdvd := periodRounds_dvd_of_le h
  rw [dueInRound_iff] at hdue ⊢
  rw [← Nat.mod_mod_of_dvd r.toNat hdvd, hdue, Nat.mod_mod_of_dvd _ hdvd]

theorem Profile.Covers.due {f : Profile} {cl : Claim} {c : Channel} {r : RoundNumber}
    (h : f.Covers cl.profile) (hdue : cl.due c r = true) : f.due c r = true := by
  unfold Claim.due at hdue
  unfold Profile.due
  rw [Bool.or_eq_true] at hdue ⊢
  exact hdue.imp h.priority (dueInRound_of_le h.period)

theorem Claim.due_iff {cl : Claim} {c : Channel} {r : RoundNumber} :
    cl.due c r = true ↔
      cl.terms.priority = true ∨
        r.toNat % periodRounds cl.terms.period = c.val % periodRounds cl.terms.period := by
  rw [Claim.due, Bool.or_eq_true, dueInRound_iff]

theorem Claim.receives_iff {cl : Claim} {c : Channel} {r : RoundNumber} :
    cl.receives c r = true ↔ cl.state = .active ∧ cl.due c r = true := by
  rw [Claim.receives, Bool.and_eq_true, decide_eq_true_eq]

theorem State.receiver_iff {s : State} {p : Port} {w : Work} {cl : Claim} :
    s.receiver p w = some cl ↔
      s.claimOf p w.channel = some cl ∧ cl.state = .active ∧ cl.due w.channel s.roundNow = true := by
  rw [State.receiver, Option.filter_eq_some_iff, Claim.receives_iff]

/-- A profile merged from claims of one range serves each of them (R5, R65). -/
theorem ClaimTable.profile_serves {ct : ClaimTable} (hct : ct.Lawful) {p : Port} {c : Channel} {cl : Claim}
    {f : Profile} (hf : ct.profile c = some f) (hcl : ct.get p c = some cl) : f.Serves cl.terms := by
  have hc := ClaimTable.profile_covers hf hcl
  obtain ⟨q, cl', hq, hrange⟩ := ClaimTable.profile_field (·.range) (fun _ _ => .inl rfl) hf
  exact ⟨hrange.symm.trans (hct.2.1 q p c cl' cl hq hcl), hc.resolution, periodRounds_dvd_of_le hc.period,
    hc.priority⟩

end Sys2Proof.Machine
end

section
/-! The statements of channel profiles, of load and reserve, and of due rounds. -/

-- In sequence, as the sections above.
set_option Elab.async false

namespace Sys2Proof

open Machine

/-- Settles O6: a profile covers every claim it is merged from, and takes each field from one of them. -/
theorem profileMergesTheClaims : Obligations.ProfileMergesTheClaims := by
  refine ⟨fun _ _ => rfl, fun ct c => ⟨ClaimTable.profile_none, fun f hf => ⟨fun p cl hcl => ?_, ?_, ?_, ?_, ?_, ?_⟩⟩⟩
  · have hc := ClaimTable.profile_covers hf hcl
    exact ⟨hc.resolution, hc.hold, hc.period, hc.priority⟩
  · exact ClaimTable.profile_field (·.range) (fun _ _ => .inl rfl) hf
  · exact ClaimTable.profile_field (·.resolution) Profile.merge_resolution hf
  · exact ClaimTable.profile_field (·.hold) Profile.merge_hold hf
  · exact ClaimTable.profile_field (·.period) Profile.merge_period hf
  · exact ClaimTable.profile_field (·.priority) Profile.merge_priority hf

/-- Settles O7: the formulas are the model's own once its tests on channels are said of profiles; the bound and
the removal of claims are the earlier lemmas about the sums. -/
theorem reserveBoundsTheLoad : Obligations.ReserveBoundsTheLoad := by
  refine ⟨rfl, fun ct => ?_, ClaimTable.load_le_reserve, fun ct ct' h => ?_⟩
  · intro claimed normal priority costOf
    have hp : allChannels.filter ct.isPriority = priority := by
      rw [allChannels_eq_finRange, funext ct.isPriority_eq]
    have hn : allChannels.filter ct.isNormal = normal := by
      rw [allChannels_eq_finRange, funext ct.isNormal_eq_any]
    have hm : allChannels.filter ct.isClaimed = claimed := by
      rw [allChannels_eq_finRange, funext ct.isClaimed_eq]
    have hcost : ct.profileCost = costOf := funext ct.profileCost_eq
    refine ⟨by rw [ClaimTable.priorityChannels, hp], ?_, ?_, fun c => ⟨?_, ?_, ?_⟩⟩
    · simp only [ClaimTable.load, sumOver, hn, hp, hcost]
    · simp only [ClaimTable.reserve, sumOver, hn, hp, hm]
    · exact fun p cl hcl => ClaimTable.cost_le_worstCost hcl
    · exact ClaimTable.worstCost_eq_zero
    · rintro ⟨p, hp⟩
      obtain ⟨cl, hcl⟩ := Option.ne_none_iff_exists'.mp hp
      exact ClaimTable.worstCost_mem hcl
  · refine ClaimTable.Within.reserve_le fun p c cl hcl => ⟨cl, ?_, rfl⟩
    rcases h p c with h | h
    · rw [← h, hcl]
    · rw [h] at hcl
      cases hcl

/-- Settles O15: periods divide the count of round numbers, and a profile's period divides each claim's. -/
theorem dueRounds : Obligations.DueRounds := by
  refine ⟨fun cl c r => ⟨Claim.due_iff, Claim.receives_iff⟩, fun s p w cl r hr => ?_,
    fun period c r => ⟨dueInRound_iff, dueInRound_add_period period c r, fun k => dueInRound_add_lt⟩,
    fun ct p c cl f r hcl hf => (ClaimTable.profile_covers hf hcl).due⟩
  have hnow : s.roundNow = r := by rw [State.roundNow, hr]; rfl
  rw [← hnow]
  exact State.receiver_iff

end Sys2Proof
end

section
/-! SUPPORT. The Scheduler in agreement with its fields, the Converter and the claims it serves (R28, R30, R33, R48,
R52, R65). -/

-- In sequence, as the sections above.
set_option Elab.async false

namespace Sys2Proof.Machine

/-! ### The Scheduler's own fields -/

/-- The Scheduler's fields agree with its state (2.2, R30, R33). -/
structure Scheduler.Consistent (sc : Scheduler) : Prop where
  stopped : sc.state = .stopped →
    (∀ c, sc.plan.get c = none) ∧ sc.slots = [] ∧ sc.snapshotInterval = none ∧ sc.pacingTimer = none
  ticksLost : sc.state ≠ .late → sc.ticksLost = 0
  ticksLost_le : sc.ticksLost ≤ 255
  startPending : sc.startPending = true → sc.state = .stopped

/-- The Scheduler's law but for the Converter's part in a round: what holds also between a boundary and the choice
that follows it. -/
structure State.SchedSettled (s : State) : Prop where
  consistent : s.sched.Consistent
  planInFlight : s.planInFlight → s.sched.inRound = true
  startPending : s.sched.startPending = true → s.conv.work.isSome = true

theorem State.schedulerLawful_iff {s : State} :
    s.SchedulerLawful ↔ s.SchedSettled ∧ (s.sched.inRound = true → s.conv.work.isSome = true) := by
  constructor
  · rintro ⟨hbusy, hplan, hstopped, hlate, hle, hpending⟩
    exact ⟨⟨⟨hstopped, hlate, hle, fun h => (hpending h).1⟩, hplan, fun h => (hpending h).2⟩, hbusy⟩
  · rintro ⟨⟨⟨hstopped, hlate, hle, hpending⟩, hplan, hwork⟩, hbusy⟩
    exact ⟨hbusy, hplan, hstopped, hlate, hle, fun h => ⟨hpending h, hwork h⟩⟩

theorem Scheduler.inRound_iff {sc : Scheduler} :
    sc.inRound = true ↔ sc.state = .running ∨ sc.state = .late := by
  rw [Scheduler.inRound, Bool.or_eq_true, decide_eq_true_eq, decide_eq_true_eq]

/-- A start is pending in STOPPED alone (R30). -/
theorem Scheduler.Consistent.not_pending {sc : Scheduler} (h : sc.Consistent) (hs : sc.state ≠ .stopped) :
    sc.startPending = false := by
  by_contra hp
  exact hs (h.startPending (by simpa using hp))

/-- With nothing in flight no plan slot is. -/
theorem State.not_planInFlight {s : State} (h : s.conv.work = none) : ¬s.planInFlight := by
  rintro ⟨w, n, hw, -⟩
  rw [h] at hw
  cases hw

/-- A boundary leaves the fields in agreement (R32, R33). -/
theorem State.boundary_consistent {s : State} (t : Nat) (hticks : s.sched.ticksLost = 0)
    (hpending : s.sched.startPending = false) : (s.boundary t).sched.Consistent := by
  refine ⟨fun hstopped => ?_, fun _ => by rw [State.boundary_ticksLost, hticks],
    by rw [State.boundary_ticksLost, hticks]; exact Nat.zero_le _, fun h => ?_⟩
  · have hempty := (s.boundary_state t).2.mp hstopped
    refine ⟨fun c => ?_, ?_⟩
    · rw [State.boundary_plan, State.profile,
        ClaimTable.profile_none.mpr fun p => ClaimTable.isEmpty_iff.mp hempty p c]
      rfl
    · rw [State.boundary_empty t hempty]
      exact ⟨rfl, rfl, rfl⟩
  · rw [State.boundary_startPending, hpending] at h
    cases h

/-- The end of a round leaves the fields in agreement (R29). -/
theorem State.lastSlotFinished_consistent {s : State} (t : Nat) (h : s.sched.Consistent) :
    (s.lastSlotFinished t).sched.Consistent := by
  cases hr : s.sched.state with
  | stopped => simpa only [State.lastSlotFinished, hr] using h
  | done => simpa only [State.lastSlotFinished, hr] using h
  | running =>
    rw [State.lastSlotFinished_running t hr]
    refine ⟨nofun, fun _ => h.ticksLost (by simp [hr]), h.ticksLost_le, fun hp => ?_⟩
    exact absurd ((h.not_pending (by simp [hr])).symm.trans hp) (by simp)
  | late =>
    simp only [State.lastSlotFinished, hr]
    exact State.boundary_consistent t rfl (h.not_pending (by simp [hr]))

theorem State.lastSlotFinished_startPending (s : State) (t : Nat) :
    (s.lastSlotFinished t).sched.startPending = s.sched.startPending := by
  cases hr : s.sched.state with
  | stopped => simp only [State.lastSlotFinished, hr]
  | done => simp only [State.lastSlotFinished, hr]
  | running => rw [State.lastSlotFinished_running t hr]; rfl
  | late => simp only [State.lastSlotFinished, hr, State.boundary_startPending, State.setSched_sched]

/-- A teardown makes no plan slot and ends none. -/
theorem Work.teardown_plan {w : Work} {p : Port} {n : Nat} :
    (w.teardown p).kind = .plan n ↔ w.kind = .plan n := by
  unfold Work.teardown
  split
  · rename_i h
    split <;> simp [h]
  · rfl
  · rfl

/-! ### The slot list -/

theorem mem_numberSlots {l : List (Channel × Profile)} {i : Nat} {sl : PlanSlot} (h : sl ∈ numberSlots i l) :
    (sl.channel, sl.profile) ∈ l := by
  obtain ⟨j, hj⟩ := List.getElem?_of_mem h
  rw [numberSlots_getElem?, Option.map_eq_some_iff] at hj
  obtain ⟨x, hx, rfl⟩ := hj
  exact List.mem_of_getElem? hx

theorem mem_slotOrder {normal priority : List (Channel × Profile)} {x : Channel × Profile}
    (h : x ∈ slotOrder normal priority) : x ∈ normal ∨ x ∈ priority := by
  unfold slotOrder at h
  split at h
  · exact .inl h
  · split at h
    · exact .inr h
    · obtain ⟨y, hy, hx⟩ := List.mem_flatMap.mp h
      rcases List.mem_append.mp hx with hx | hx
      · exact .inr hx
      · exact .inl (List.mem_singleton.mp hx ▸ hy)

/-- Every slot of a round has its channel's plan profile (R38). -/
theorem slotList_profile {plan : Plan} {r : RoundNumber} {sl : PlanSlot} (h : sl ∈ slotList plan r) :
    ∃ e, plan.get sl.channel = some e ∧ e.profile = sl.profile :=
  (mem_slotOrder (mem_numberSlots h)).elim planChannels_mem planChannels_mem

/-! ### The choice -/

/-- Interstitial work is taken if there is any (R51 rule 1, R52). -/
theorem State.takeInterstitial_idle {s : State} {t : Nat} (h : (s.takeInterstitial t).conv.work = none) :
    s.takeInterstitial t = s ∧ s.interstitialEligible = false := by
  unfold State.takeInterstitial at h ⊢
  unfold State.interstitialEligible
  cases ho : s.capture.bank.offer with
  | some x => rw [ho] at h; cases h
  | none =>
    cases hd : s.demandOffer with
    | some d => rw [ho, hd] at h; cases h
    | none => exact ⟨rfl, rfl⟩

/-- A choice that leaves the Converter IDLE leaves no round and no interstitial work (R48, R52). -/
theorem State.choose_idle {s : State} {t : Nat} (h : (s.choose t).conv.work = none) :
    (s.choose t).sched.inRound = false ∧ (s.choose t).interstitialEligible = false := by
  have outside : ∀ u : State, u.sched.inRound = false → (u.takeInterstitial t).conv.work = none →
      (u.takeInterstitial t).sched.inRound = false ∧
        (u.takeInterstitial t).interstitialEligible = false := fun u hr hu => by
    obtain ⟨he, hn⟩ := State.takeInterstitial_idle hu
    rw [he]
    exact ⟨hr, hn⟩
  unfold State.choose at h ⊢
  cases hr : s.sched.inRound with
  | false =>
    rw [hr] at h
    exact outside s hr h
  | true =>
    simp only [hr, if_true] at h ⊢
    split at h
    · rename_i he
      rw [Bool.and_eq_true, (State.takeInterstitial_idle h).2] at he
      cases he.2
    · rename_i he
      rw [if_neg he]
      unfold State.planTurn at h ⊢
      rcases State.slotTurn_cases s t _ with ⟨sl, -, h'⟩ | ⟨-, h'⟩ <;> rw [h'] at h ⊢
      · cases h
      · have hlate := (s.skipRun s.sched.remainingSlots).1.lastSlotFinished_not_late t
        generalize (s.skipRun s.sched.remainingSlots).1.lastSlotFinished t = u at h hlate ⊢
        split at h
        · rename_i hu
          rw [if_pos hu]
          rcases State.slotTurn_cases u t _ with ⟨sl, -, h'⟩ | ⟨-, h'⟩ <;> rw [h'] at h ⊢
          · cases h
          · refine outside _ ?_ h
            have hrun : (u.skipRun u.sched.remainingSlots).1.sched.state = .running := by
              rw [State.skipRun_state]
              exact (Scheduler.inRound_iff.mp hu).resolve_right hlate
            rw [State.lastSlotFinished_running t hrun]
            rfl
        · rename_i hu
          rw [if_neg hu]
          exact outside u (by simpa using hu) h

/-- A choice with nothing in flight and no start pending establishes the Scheduler's law, and leaves an IDLE
Converter without interstitial work (R48 to R52). -/
theorem State.choose_lawful {s : State} (t : Nat) (hc : s.sched.Consistent)
    (hp : s.sched.startPending = false) (hw : s.conv.work = none) :
    (s.choose t).SchedulerLawful ∧ (s.choose t).IdleAtRest := by
  have hkept : (s.choose t).sched.Consistent ∧ (s.choose t).sched.startPending = false ∧
      ((s.choose t).planInFlight → (s.choose t).sched.inRound = true) := by
    refine s.choose_keeps t
      (P := fun u => u.sched.Consistent ∧ u.sched.startPending = false ∧
        (u.planInFlight → u.sched.inRound = true)) ?_ ?_ ?_ ?_ ?_
      ⟨hc, hp, fun h => absurd h (State.not_planInFlight hw)⟩
    · rintro u sl ⟨⟨h1, h2, h3, h4⟩, hup, hplan⟩ - -
      exact ⟨⟨h1, h2, h3, h4⟩, hup, hplan⟩
    · rintro u ⟨huc, hup, -⟩ hconv
      refine ⟨State.lastSlotFinished_consistent t huc,
        (u.lastSlotFinished_startPending t).trans hup, fun h => absurd h (State.not_planInFlight ?_)⟩
      rw [State.lastSlotFinished_conv, hconv, hw]
    · rintro u sl ⟨⟨h1, h2, h3, h4⟩, hup, -⟩ - hr - -
      exact ⟨⟨h1, h2, h3, h4⟩, hup, fun _ => hr⟩
    · rintro u cp pos it ⟨huc, hup, -⟩ - -
      refine ⟨huc, hup, ?_⟩
      rintro ⟨w, n, hwork, hk⟩
      obtain rfl := Option.some.inj hwork
      cases hk
    · rintro u d ⟨huc, hup, -⟩ - -
      refine ⟨huc, hup, ?_⟩
      rintro ⟨w, n, hwork, hk⟩
      obtain rfl := Option.some.inj hwork
      cases hk
  obtain ⟨hkc, hkp, hkplan⟩ := hkept
  refine ⟨State.schedulerLawful_iff.mpr ⟨⟨hkc, hkplan, fun h => ?_⟩, fun hr => ?_⟩, fun h =>
    (State.choose_idle h).2⟩
  · rw [hkp] at h
    cases h
  · rw [Option.isSome_iff_ne_none]
    intro h
    rw [(State.choose_idle h).1] at hr
    cases hr

/-- Whatever a settled state's Converter is, the choice that follows establishes the law (R50). -/
theorem State.SchedSettled.chooseIfIdle {s : State} (hs : s.SchedSettled) (t : Nat) :
    (s.chooseIfIdle t).SchedulerLawful ∧ (s.chooseIfIdle t).IdleAtRest := by
  by_cases hw : s.conv.work = none
  · rw [State.chooseIfIdle_idle t hw]
    refine State.choose_lawful t hs.consistent ?_ hw
    by_contra hp
    have := hs.startPending (by simpa using hp)
    rw [hw] at this
    cases this
  · rw [State.chooseIfIdle_busy t hw]
    exact ⟨State.schedulerLawful_iff.mpr ⟨hs, fun _ => Option.isSome_iff_ne_none.mpr hw⟩,
      fun h => absurd h hw⟩

namespace State.SchedSettled

variable {s u : State}

/-- Being settled reads the Scheduler and the work in flight alone. -/
theorem of_eq (hs : s.SchedSettled) (hsched : u.sched = s.sched) (hw : u.conv.work = s.conv.work) :
    u.SchedSettled := by
  obtain ⟨hc, hp, hpending⟩ := hs
  unfold State.planInFlight at hp
  refine ⟨by rwa [hsched], ?_, by rwa [hsched, hw]⟩
  unfold State.planInFlight
  rwa [hsched, hw]

/-- A boundary taken in DONE, or in STOPPED by an IDLE Converter (R28, R30). -/
theorem boundary (hs : s.SchedSettled) (t : Nat)
    (h : s.sched.state = .done ∨ (s.conv.work = none ∧ s.sched.startPending = false ∧ s.sched.state ≠ .late)) :
    (s.boundary t).SchedSettled := by
  have hsched : s.sched.ticksLost = 0 ∧ s.sched.startPending = false ∧ ¬s.planInFlight := by
    rcases h with h | ⟨hw, hp, hl⟩
    · refine ⟨hs.consistent.ticksLost (by simp [h]), hs.consistent.not_pending (by simp [h]), fun hf => ?_⟩
      have := hs.planInFlight hf
      simp [Scheduler.inRound, h] at this
    · exact ⟨hs.consistent.ticksLost hl, hp, State.not_planInFlight hw⟩
  obtain ⟨hticks, hpending, hplan⟩ := hsched
  refine ⟨State.boundary_consistent t hticks hpending, fun hf => absurd ?_ hplan, fun hp => ?_⟩
  · obtain ⟨w, n, hw, hk⟩ := hf
    rw [State.boundary_conv] at hw
    exact ⟨w, n, hw, hk⟩
  · rw [State.boundary_startPending, hpending] at hp
    cases hp

/-- A plan that loses no channel and gains none, and plan slots in flight as before. -/
theorem of_plan (hs : s.SchedSettled) {x : Plan} (hsched : u.sched = { s.sched with plan := x })
    (hx : ∀ c, s.sched.plan.get c = none → x.get c = none) (hplan : u.planInFlight → s.planInFlight)
    (hwork : s.conv.work.isSome = true → u.conv.work.isSome = true) : u.SchedSettled := by
  obtain ⟨⟨hstopped, hticks, hle, hpending⟩, hp, hw⟩ := hs
  constructor
  · rw [hsched]
    refine ⟨fun h => ?_, hticks, hle, hpending⟩
    obtain ⟨hnone, hrest⟩ := hstopped h
    exact ⟨fun c => hx c (hnone c), hrest⟩
  · intro hf
    rw [hsched]
    exact hp (hplan hf)
  · rw [hsched]
    exact fun h => hwork (hw h)

/-- A teardown's blocks take a session out of the plan's holders, and leave a plan slot in flight (R26, R59). -/
theorem torn (hs : s.SchedSettled) (p : Port) (t : Nat) :
    ((s.teardownBlocks p).teardownCapture p t).SchedSettled := by
  rw [State.teardownCapture_frame]
  refine hs.of_plan (x := removeHolder s.sched.plan p) rfl (fun c hc => ?_) ?_ fun h => ?_
  · rw [removeHolder, PerChannel.get_tabulate, hc]
    rfl
  · rintro ⟨w, n, hw, hk⟩
    obtain ⟨w', hw', rfl⟩ := Option.map_eq_some_iff.mp hw
    exact ⟨w', n, hw', Work.teardown_plan.mp hk⟩
  · change (s.conv.work.map _).isSome = true
    rwa [Option.isSome_map]

end State.SchedSettled

/-- A completion leaves the Scheduler lawful: the round's last slot, the deferred boundary and the choice
(R29, R31, R58). -/
theorem State.complete_lawful {s : State} (hs : s.SchedulerLawful) (w : Work) :
    (s.complete w).SchedulerLawful ∧ (s.complete w).IdleAtRest := by
  obtain ⟨⟨hc, -, -⟩, -⟩ := State.schedulerLawful_iff.mp hs
  rw [State.complete_eq]
  set u := (s.deliverResult w).releaseWork w with hu
  have hsched : u.sched = s.sched := by
    rw [hu, State.releaseWork, State.setConv_sched, State.deliverResult_frame]
  have hwork : u.conv.work = none := rfl
  have hfinish : (u.finishSlot w).sched.Consistent := by
    unfold State.finishSlot
    split
    · split
      · exact State.lastSlotFinished_consistent _ (hsched ▸ hc)
      · exact hsched ▸ hc
    · exact hsched ▸ hc
    · exact hsched ▸ hc
  have hidle : (u.finishSlot w).conv.work = none := by
    rw [State.finishSlot_frame]
    exact hwork
  generalize u.finishSlot w = v at hfinish hidle ⊢
  cases hp : v.sched.startPending with
  | false =>
    rw [State.takeDeferredBoundary_none _ hp]
    exact State.choose_lawful _ hfinish hp hidle
  | true =>
    rw [State.takeDeferredBoundary_pending _ hp]
    refine State.choose_lawful _ (State.boundary_consistent _ ?_ rfl) ?_ ?_
    · exact hfinish.ticksLost (by simp [hfinish.startPending hp])
    · rw [State.boundary_startPending]
      rfl
    · rw [State.boundary_conv]
      exact hidle

/-- A CLAIM taken gives notice of a table turned non-empty (R30). -/
theorem State.takeClaim_lawful {s : State} (hs : s.SchedulerLawful) (p : Port) (rq : ClaimRequest) (t : Nat) :
    (s.takeClaim p rq t).SchedulerLawful ∧ (s.IdleAtRest → (s.takeClaim p rq t).IdleAtRest) := by
  obtain ⟨hset, -⟩ := State.schedulerLawful_iff.mp hs
  have hset' : (s.setClaims (s.claims.candidate p rq)).SchedSettled := hset.of_eq rfl rfl
  unfold State.takeClaim
  dsimp only
  split
  · have hturn : ((s.setClaims (s.claims.candidate p rq)).tableTurnsNonEmpty t).SchedSettled := by
      unfold State.tableTurnsNonEmpty
      generalize s.setClaims (s.claims.candidate p rq) = u at hset' ⊢
      split
      · rename_i hstopped
        split
        · exact hset'
        · rename_i hp
          split
          · rename_i hw
            exact hset'.boundary t
              (.inr ⟨Option.isNone_iff_eq_none.mp hw, by simpa using hp, by simp [hstopped]⟩)
          · rename_i hw
            obtain ⟨⟨h1, h2, h3, -⟩, hplan, -⟩ := hset'
            exact ⟨⟨h1, h2, h3, fun _ => hstopped⟩, hplan, fun _ => by
              simpa [Option.isSome_iff_ne_none, Option.isNone_iff_eq_none] using hw⟩
      · exact hset'
      · exact hset'
      · exact hset'
    exact ⟨(hturn.chooseIfIdle t).1, fun _ => (hturn.chooseIfIdle t).2⟩
  · exact ⟨hs, id⟩

/-- A tick keeps the law: RUNNING turns LATE, LATE counts, DONE takes a boundary (R28). -/
theorem State.tick_lawful {s : State} (hs : s.SchedulerLawful) (t : Nat) :
    (s.tick t).SchedulerLawful ∧ (s.IdleAtRest → (s.tick t).IdleAtRest) := by
  obtain ⟨hset, hbusy⟩ := State.schedulerLawful_iff.mp hs
  have hround : ∀ x : Scheduler, s.sched.inRound = true → x.state = .late → x.ticksLost ≤ 255 →
      x.startPending = s.sched.startPending →
      (s.setSched x).SchedulerLawful ∧ (s.IdleAtRest → (s.setSched x).IdleAtRest) := fun x hr hx hle hxp => by
    have hnot : s.sched.startPending = false := hset.consistent.not_pending fun h => by
      simp [Scheduler.inRound, h] at hr
    refine ⟨State.schedulerLawful_iff.mpr ⟨⟨⟨fun h => ?_, fun h => absurd hx h, hle, fun h => ?_⟩,
      fun _ => Scheduler.inRound_iff.mpr (.inr hx), fun h => ?_⟩, fun _ => hbusy hr⟩, id⟩
    · rw [State.setSched_sched, hx] at h
      cases h
    · rw [State.setSched_sched, hxp, hnot] at h
      cases h
    · rw [State.setSched_sched, hxp, hnot] at h
      cases h
  unfold State.tick
  split
  · rename_i hr
    exact hround _ (Scheduler.inRound_iff.mpr (.inl hr)) rfl (Nat.zero_le _) rfl
  · rename_i hl
    exact hround _ (Scheduler.inRound_iff.mpr (.inr hl)) hl (Nat.min_le_right _ _) rfl
  · rename_i hd
    have h := (hset.boundary t (.inl hd)).chooseIfIdle t
    exact ⟨h.1, fun _ => h.2⟩
  · exact ⟨hs, id⟩

/-- What a command does keeps the Scheduler's law, and with it an IDLE Converter without interstitial work. -/
theorem CoreStep.scheduler {c : Instr} {s v : State} (h : CoreStep c s v) (hs : s.SchedulerLawful) :
    v.SchedulerLawful ∧ (s.IdleAtRest → v.IdleAtRest) := by
  obtain ⟨hset, hbusy⟩ := State.schedulerLawful_iff.mp hs
  have chosen : ∀ {u : State} (t : Nat), u.SchedSettled →
      (u.chooseIfIdle t).SchedulerLawful ∧ (s.IdleAtRest → (u.chooseIfIdle t).IdleAtRest) := fun t hu =>
    ⟨(hu.chooseIfIdle t).1, fun _ => (hu.chooseIfIdle t).2⟩
  cases h with
  | idle | lease | opened | linkResetClosed | paced | release | fewerRecords | resume | watermark
  | fewerEvents | rstnRelease => exact ⟨hs, id⟩
  | closed t p _ => exact chosen t (hset.torn p t)
  | linkResetOpen t p _ _ => exact chosen t (hset.torn p t)
  | expired p t _ _ => exact chosen t (hset.torn p t)
  | claim t p rq _ _ _ => exact State.takeClaim_lawful hs p rq t
  | readNow t p rq _ _ _ => exact chosen t (hset.of_eq rfl rfl)
  | capture t p rq _ _ _ _ =>
    refine chosen t (hset.of_eq ?_ ?_) <;>
      · rw [State.takeHead_frame]
        rfl
  | cancel t p tag _ _ =>
    refine chosen t (hset.of_eq ?_ ?_) <;>
      · rw [State.cancel_frame]
        rfl
  | tick t _ _ => exact State.tick_lawful hs t
  | complete w _ _ => exact ⟨(State.complete_lawful hs w).1, fun _ => (State.complete_lawful hs w).2⟩
  | edge t l e _ =>
    unfold State.takeEdge
    split
    · exact ⟨hs, id⟩
    · split
      · exact chosen t (hset.of_eq rfl rfl)
      · exact ⟨hs, id⟩
    · split <;> exact ⟨hs, id⟩
  | timeout cp t _ _ =>
    unfold State.timeoutCapture
    refine chosen t (hset.of_eq ?_ ?_) <;>
      · rw [State.freeBank_frame]
        rfl
  | powerOn | rstn =>
    refine ⟨⟨nofun, ?_, fun _ => ⟨fun c => PerChannel.get_const _ c, rfl, rfl, rfl⟩, fun _ => rfl,
      Nat.zero_le _, nofun⟩, fun _ _ => rfl⟩
    exact fun h => absurd h (State.not_planInFlight rfl)

/-! ### The interval and the timer -/

/-- A boundary over claims loads the interval it finds (R33). -/
theorem State.boundary_paced {s : State} (t : Nat) (h : s.claims.isEmpty = false) :
    (s.boundary t).sched.snapshotInterval = s.effectiveInterval ∧
      (s.boundary t).sched.pacingTimer = s.effectiveInterval.map fun i => t + ofMicros i := by
  rw [State.boundary_nonempty t h]
  exact ⟨rfl, rfl⟩

/-- A boundary over claims makes the slot list of its plan (R33, R38). -/
theorem State.boundary_slots {s : State} (t : Nat) (h : s.claims.isEmpty = false) :
    (s.boundary t).sched.slots = slotList (s.boundary t).sched.plan s.sched.nextRound := by
  rw [State.boundary_nonempty t h]
  simp only [State.takeSnapshot, Scheduler.startRound]

theorem State.boundary_no_slots {s : State} (t : Nat) (h : s.claims.isEmpty = true) :
    (s.boundary t).sched.slots = [] := by
  rw [State.boundary_empty t h]
  rfl

/-- Rounds paced reads the Scheduler alone. -/
theorem State.RoundsPaced.of_eq {s u : State} (hs : s.RoundsPaced) (h : u.sched = s.sched) :
    u.RoundsPaced := by
  unfold State.RoundsPaced
  rw [h]
  exact hs

/-- Rounds paced does not read the plan. -/
theorem State.RoundsPaced.of_plan {s u : State} (hs : s.RoundsPaced) {x : Plan}
    (h : u.sched = { s.sched with plan := x }) : u.RoundsPaced := by
  unfold State.RoundsPaced
  rw [h]
  exact hs

/-- Under the budget law there is an interval at every boundary over claims, so every round is paced. -/
theorem State.RoundsPaced.keptByParts : KeptByParts fun s => s.BudgetKept ∧ s.RoundsPaced where
  toKeptByBank := .of_setCapture (fun _ _ hs => hs) fun s p hs =>
    ⟨hs.1.teardownBlocks p, hs.2.of_plan (x := removeHolder s.sched.plan p) rfl⟩
  skip s c hs := by
    refine ⟨hs.1.of_within (u := s.setClaims _) (ClaimTable.within_of_map (g := fun _ d cl =>
      if d = c ∧ cl.receives d s.roundNow then cl.raiseGap else cl) (fun p d cl => ?_) fun p d =>
        ClaimTable.get_mapCells _ _ p d) (State.setClaims_sessions _ _), hs.2.of_eq (State.setClaims_sched _ _)⟩
    split <;> rfl
  candidate s p rq hs ho _ hj := ⟨hs.1.candidate ho hj, hs.2⟩
  release s p c hs := ⟨hs.1.of_within (s.claims.set_none_within p c) rfl, hs.2⟩
  port s p h hs := ⟨hs.1.of_eq rfl rfl, hs.2⟩
  sched s x hs hx := by
    refine ⟨hs.1.setSched x, fun h => ?_⟩
    obtain ⟨hi, ht⟩ := hs.2 fun h' => h (hx.stopped.mpr h')
    exact ⟨by rw [State.setSched_sched, hx.snapshotInterval]; exact hi, hx.timer hi ht⟩
  boundary s t hs _ := by
    refine ⟨hs.1.boundary t, fun h => ?_⟩
    have hne : s.claims.isEmpty = false := by
      by_contra he
      exact h ((s.boundary_state t).2.mpr (by simpa using he))
    obtain ⟨i, hi, -⟩ := hs.1.load_le hne
    obtain ⟨hinterval, htimer⟩ := s.boundary_paced t hne
    rw [hinterval, htimer, hi]
    exact ⟨rfl, rfl⟩
  event s p e hs _ := ⟨hs.1.setEvents p _, hs.2⟩
  settle s w hs _ := ⟨(hs.1.deliverResult w).setConv _, hs.2.of_eq (by
    rw [State.releaseWork, State.setConv_sched, State.deliverResult_frame])⟩
  lease s p t hs := by
    refine ⟨hs.1.setSession_same ?_ ?_, hs.2⟩ <;>
      · unfold Session.restartLease
        split <;> rfl
  opening s p rq t hs ho _ := ⟨(hs.1.opening rq t ho).setResults _ _, hs.2⟩
  clearFlags s p hs _ := ⟨hs.1.setSession_same rfl rfl, hs.2⟩
  expired s p hs _ := ⟨hs.1.setSession_same rfl rfl, hs.2⟩
  pace s p pace hs _ hj := ⟨hs.1.writePace hj, hs.2⟩
  reset s epochs _ := ⟨State.BudgetKept.resetPart s epochs, nofun⟩

/-! ### The plan in service -/

/-- The claims and the plan that serves them, with no plan slot in flight outside a round. -/
structure State.Served (s : State) : Prop where
  claims : s.claims.Lawful
  planInFlight : s.planInFlight → s.sched.inRound = true
  plan : s.PlanServes

namespace State.PlanServes

variable {s u : State}

/-- Claims removed, or kept with their terms and no sooner ACTIVE, are served as before. -/
theorem of_claims (hs : s.PlanServes) (hsched : u.sched = s.sched) (hw : u.conv.work = s.conv.work)
    (hc : ∀ p c cl, u.claimOf p c = some cl → cl.state = .active →
      ∃ cl', s.claimOf p c = some cl' ∧ cl'.state = .active ∧ cl'.terms = cl.terms) : u.PlanServes := by
  obtain ⟨hclaims, hslots, hwork⟩ := hs
  refine ⟨fun p c cl hcl ha => ?_, by rwa [hsched], by rwa [hw, hsched]⟩
  obtain ⟨cl', hcl', ha', ht⟩ := hc p c cl hcl ha
  rw [hsched, ← ht]
  exact hclaims p c cl' hcl' ha'

/-- Work that is no plan slot asks nothing of the plan. -/
theorem of_work (hs : s.PlanServes) (hc : u.claims = s.claims) (hsched : u.sched = s.sched)
    (hw : ¬u.planInFlight) : u.PlanServes := by
  obtain ⟨hclaims, hslots, -⟩ := hs
  refine ⟨?_, by rwa [hsched], fun w n h hk => absurd ⟨w, n, h, hk⟩ hw⟩
  unfold State.claimOf
  rwa [hc, hsched]

/-- A boundary's plan serves every claim of the table, and its slots are of it (R33, R38). -/
theorem boundary (hl : s.claims.Lawful) (t : Nat) (hw : ¬s.planInFlight) : (s.boundary t).PlanServes := by
  refine ⟨fun p c cl hcl _ => ?_, fun sl hsl => ?_, fun w n h hk => ?_⟩
  · rw [State.claimOf, State.boundary_claims, Option.map_eq_some_iff] at hcl
    obtain ⟨cl', hcl', rfl⟩ := hcl
    obtain ⟨f, hf⟩ : ∃ f, s.profile c = some f := by
      rw [← Option.isSome_iff_exists, Option.isSome_iff_ne_none]
      intro hnone
      rw [ClaimTable.profile_none.mp hnone p] at hcl'
      cases hcl'
    rw [State.boundary_plan, hf]
    exact ⟨_, rfl, ClaimTable.profile_serves (cl := cl') hl hf hcl'⟩
  · cases he : s.claims.isEmpty with
    | true =>
      rw [State.boundary_no_slots t he] at hsl
      exact absurd hsl (List.not_mem_nil)
    | false =>
      rw [State.boundary_slots t he] at hsl
      exact slotList_profile hsl
  · rw [State.boundary_conv] at h
    exact absurd ⟨w, n, h, hk⟩ hw

/-- A delivery leaves every claim its terms and its state (R63, R117). -/
theorem deliverResult_claim {w : Work} {p : Port} {c : Channel} {cl : Claim}
    (h : (s.deliverResult w).claimOf p c = some cl) :
    ∃ cl', s.claimOf p c = some cl' ∧ cl'.state = cl.state ∧ cl'.terms = cl.terms := by
  cases hk : w.kind with
  | plan slot =>
    rw [State.deliverResult_plan hk] at h
    obtain ⟨cl', hcl', rfl | rfl⟩ := State.deliverPlan_claim h
    · exact ⟨cl, hcl', rfl, rfl⟩
    · exact ⟨cl', hcl', rfl, rfl⟩
  | demand tag q gone =>
    rw [State.deliverResult_demand hk, State.deliverDemand_frame] at h
    exact ⟨cl, h, rfl, rfl⟩
  | capture tag pos =>
    rw [State.deliverResult_capture hk, State.receiveCaptureValue_frame] at h
    exact ⟨cl, h, rfl, rfl⟩

/-- A teardown takes claims and holders, and leaves profiles and plan work (R23, R26, R59). -/
theorem teardownBlocks (hs : s.PlanServes) (p : Port) : (s.teardownBlocks p).PlanServes := by
  obtain ⟨hclaims, hslots, hwork⟩ := hs
  have hplan : ∀ c e, s.sched.plan.get c = some e →
      (s.teardownBlocks p).sched.plan.get c = some (e.removeHolder p) := fun c e he => by
    change (removeHolder s.sched.plan p).get c = _
    rw [removeHolder, PerChannel.get_tabulate, he]
    rfl
  refine ⟨fun q c cl hcl ha => ?_, fun sl hsl => ?_, fun w n hw hk => ?_⟩
  · have hcl' : (s.claims.removeSession p).get q c = some cl := hcl
    rw [ClaimTable.get_removeSession] at hcl'
    split at hcl'
    · cases hcl'
    · obtain ⟨e, he, hserves⟩ := hclaims q c cl hcl' ha
      exact ⟨e.removeHolder p, hplan c e he, hserves⟩
  · obtain ⟨e, he, hprofile⟩ := hslots sl hsl
    exact ⟨e.removeHolder p, hplan _ e he, hprofile⟩
  · obtain ⟨w', hw', rfl⟩ := Option.map_eq_some_iff.mp hw
    obtain ⟨e, he, hrest⟩ := hwork w' n hw' (Work.teardown_plan.mp hk)
    rw [Work.teardown_eq]
    exact ⟨e.removeHolder p, hplan _ e he, hrest⟩

/-- A reset leaves no claim, no slot and no work (R24, R47, R66). -/
theorem reset (s : State) (epochs : PerPort Epoch) : (s.resetPart epochs).PlanServes := by
  refine ⟨fun p c cl hcl => ?_, by simp [State.resetPart, Scheduler.reset], fun w n hw => by cases hw⟩
  have hnone : (s.resetPart epochs).claimOf p c = none := ClaimTable.get_empty p c
  rw [hnone] at hcl
  cases hcl

/-- An ACTIVE claim receives a slot's value in its own range, from a conversion of at least its own resolution
(R5, R65). -/
theorem receiver (hs : s.PlanServes) {w : Work} {n : Nat} {p : Port} {cl : Claim} (hw : s.conv.work = some w)
    (hk : w.kind = .plan n) (hr : s.receiver p w = some cl) :
    cl.terms.range = w.range ∧ resolutionBits cl.terms.resolution ≤ resolutionBits w.resolution := by
  obtain ⟨hclaims, -, hwork⟩ := hs
  obtain ⟨hcl, ha, -⟩ := State.receiver_iff.mp hr
  obtain ⟨e, he, hrange, hres, -⟩ := hwork w n hw hk
  obtain ⟨e', he', hserves⟩ := hclaims p w.channel cl hcl ha
  obtain rfl := Option.some.inj (he.symm.trans he')
  exact ⟨hserves.1.symm.trans hrange, hres ▸ hserves.2.1⟩

end State.PlanServes

namespace State.Served

variable {s u : State}

/-- Serving reads the claims, the Scheduler and the work in flight alone. -/
theorem setCapture (hs : s.Served) (x : CaptureBank) : (s.setCapture x).Served :=
  ⟨hs.claims, hs.planInFlight, hs.plan⟩

theorem setClaims (hs : s.Served) {x : ClaimTable} (hl : x.Lawful)
    (hc : ∀ p c cl, x.get p c = some cl → cl.state = .active →
      ∃ cl', s.claimOf p c = some cl' ∧ cl'.state = .active ∧ cl'.terms = cl.terms) :
    (s.setClaims x).Served :=
  ⟨hl, hs.planInFlight, hs.plan.of_claims rfl rfl hc⟩

/-- Work taken that is no plan slot. -/
theorem putOther (hs : s.Served) {w : Work} (hk : ∀ n, w.kind ≠ .plan n) : (s.putWork w).Served := by
  have hno : ¬(s.putWork w).planInFlight := by
    rintro ⟨w', n, hw, hk'⟩
    obtain rfl := Option.some.inj hw
    exact hk n hk'
  exact ⟨hs.claims, fun h => absurd h hno, hs.plan.of_work rfl rfl hno⟩

theorem teardownBlocks (hs : s.Served) (p : Port) : (s.teardownBlocks p).Served := by
  have hround : ∀ x : Plan, ({ s.sched with plan := x } : Scheduler).inRound = s.sched.inRound := fun _ => rfl
  refine ⟨hs.claims.removeSession p, fun h => ?_, hs.plan.teardownBlocks p⟩
  · obtain ⟨w, n, hw, hk⟩ := h
    obtain ⟨w', hw', rfl⟩ := Option.map_eq_some_iff.mp hw
    exact (hround (removeHolder s.sched.plan p)).trans
      (hs.planInFlight ⟨w', n, hw', Work.teardown_plan.mp hk⟩)

theorem keptByParts : KeptByParts State.Served where
  toKeptByBank := .of_setCapture (fun _ x hs => hs.setCapture x) fun _ p hs => hs.teardownBlocks p
  skip s c hs := hs.setClaims (hs.claims.skip c s.roundNow) fun p d cl hcl ha => by
    rw [ClaimTable.get_mapCells, skipCell, Option.map_eq_some_iff] at hcl
    obtain ⟨cl', hcl', rfl⟩ := hcl
    by_cases hd : d = c ∧ cl'.receives d s.roundNow = true
    · rw [if_pos hd] at ha ⊢
      exact ⟨cl', hcl', ha, rfl⟩
    · rw [if_neg hd] at ha ⊢
      exact ⟨cl', hcl', ha, rfl⟩
  candidate s p rq hs _ hv hj := hs.setClaims (.candidate hs.claims hv hj) fun q c cl hcl ha => by
    rw [ClaimTable.candidate, ClaimTable.get_set] at hcl
    split at hcl
    · obtain rfl := Option.some.inj hcl
      cases ha
    · exact ⟨cl, hcl, ha, rfl⟩
  release s p c hs := hs.setClaims (ClaimTable.Lawful.keptByParts.release s p c hs.claims)
    fun q d cl hcl ha => by
      rw [ClaimTable.get_set] at hcl
      split at hcl
      · cases hcl
      · exact ⟨cl, hcl, ha, rfl⟩
  port s p h hs := ⟨hs.claims, hs.planInFlight, hs.plan⟩
  sched s x hs hx := by
    obtain ⟨hl, hp, hclaims, hslots, hwork⟩ := hs
    refine ⟨hl, fun hf => hx.inRound ?_ (hp hf), ?_, ?_, ?_⟩
    · obtain ⟨w, n, hw, -⟩ := hf
      have hw' : s.conv.work = some w := hw
      simp [hw']
    · rw [State.setSched_sched, hx.plan]
      exact hclaims
    · rw [State.setSched_sched, hx.slots, hx.plan]
      exact hslots
    · rw [State.setSched_sched, hx.plan]
      exact hwork
  boundary s t hs hw := by
    have hno : ¬s.planInFlight := fun hf => by
      rcases hw with hw | hd
      · exact State.not_planInFlight hw hf
      · have := hs.planInFlight hf
        simp [Scheduler.inRound, hd] at this
    refine ⟨ClaimTable.Lawful.keptByParts.boundary s t hs.claims hw, fun hf => absurd ?_ hno,
      .boundary hs.claims t hno⟩
    obtain ⟨w, n, h, hk⟩ := hf
    rw [State.boundary_conv] at h
    exact ⟨w, n, h, hk⟩
  event s p e hs _ := ⟨hs.claims, hs.planInFlight, hs.plan⟩
  slotWork s sl t hs _ hr hm := by
    obtain ⟨hl, -, hclaims, hslots, -⟩ := hs
    refine ⟨hl, fun _ => hr, hclaims, hslots, fun w n hw hk => ?_⟩
    obtain rfl := Option.some.inj hw
    obtain ⟨e, he, hprofile⟩ := hslots sl hm
    rw [← hprofile]
    exact ⟨e, he, rfl, rfl, rfl⟩
  captureWork s cp pos it t hs _ _ := (hs.setCapture _).putOther fun _ h => by cases h
  demandWork s d t hs _ _ :=
    State.Served.putOther (s := s.setDemand { s.demand with entries := s.demand.entries.erase d })
      ⟨hs.claims, hs.planInFlight, hs.plan⟩ fun _ h => by cases h
  settle s w hs _ := by
    have hno : ¬((s.deliverResult w).releaseWork w).planInFlight := State.not_planInFlight rfl
    have hsched : (s.deliverResult w).sched = s.sched := by rw [State.deliverResult_frame]
    refine ⟨hs.claims.deliverResult w, fun h => absurd h hno, fun p c cl hcl ha => ?_, ?_,
      fun w' n hw' => by cases hw'⟩
    · obtain ⟨cl', hcl', hstate, hterms⟩ := State.PlanServes.deliverResult_claim hcl
      have h := hs.plan.1 p c cl' hcl' (hstate.trans ha)
      rw [State.releaseWork, State.setConv_sched, hsched, ← hterms]
      exact h
    · rw [State.releaseWork, State.setConv_sched, hsched]
      exact hs.plan.2.1
  lease s p t hs := ⟨hs.claims, hs.planInFlight, hs.plan⟩
  opening s p rq t hs _ _ := ⟨hs.claims, hs.planInFlight, hs.plan⟩
  clearFlags s p hs _ := ⟨hs.claims, hs.planInFlight, hs.plan⟩
  expired s p hs _ := ⟨hs.claims, hs.planInFlight, hs.plan⟩
  pace s p pace hs _ _ := ⟨hs.claims, hs.planInFlight, hs.plan⟩
  demand s p rq hs _ _ := ⟨hs.claims, hs.planInFlight, hs.plan⟩
  fewerRecords s p k hs := ⟨hs.claims, hs.planInFlight, hs.plan⟩
  resume s p hs := ⟨hs.claims, hs.planInFlight, hs.plan⟩
  watermark s p n hs _ _ := ⟨hs.claims, hs.planInFlight, hs.plan⟩
  fewerEvents s p n hs := ⟨hs.claims, hs.planInFlight, hs.plan⟩
  reset s epochs hs :=
    ⟨ClaimTable.Lawful.empty, fun h => absurd h (State.not_planInFlight rfl), .reset s epochs⟩
  rstn s b hs := ⟨hs.claims, hs.planInFlight, hs.plan⟩
  queue s q hs := ⟨hs.claims, hs.planInFlight, hs.plan⟩

end State.Served

end Sys2Proof.Machine
end

section
/-! The statement of the Scheduler's laws. -/

-- In sequence, as the sections above.
set_option Elab.async false

namespace Sys2Proof

open Machine

/-- Settles O22: a choice restores the law wherever a boundary or a completion left the Converter IDLE; intervals
and the plan in service are kept by the parts. -/
theorem schedulerLawful : Obligations.SchedulerLawful := by
  intro s s' hs hstep
  have laws : ∀ c (s u : State), s.SchedulerLawful → exec c s = .next u →
      u.SchedulerLawful ∧ (s.IdleAtRest → u.IdleAtRest) := fun c s u hs he => by
    obtain ⟨v, ports, hv, rfl⟩ := exec_coreDone he
    exact hv.scheduler hs
  refine ⟨?_, fun hi => ?_, fun hb hp => ?_, fun hc hp => ?_⟩
  · exact step_keeps (P := State.SchedulerLawful) (fun _ _ h => h) (fun c s u h he => (laws c s u h he).1) hs hstep
  · exact (step_keeps (P := fun s => s.SchedulerLawful ∧ s.IdleAtRest) (fun _ _ h => h)
      (fun c s u h he => (laws c s u h.1 he).imp_right fun hi => hi h.2) ⟨hs, hi⟩ hstep).2
  · exact (step_keeps_of State.RoundsPaced.keptByParts.operations ⟨hb, hp⟩ hstep).2
  · have hserved := step_keeps_of State.Served.keptByParts.operations
      ⟨hc, (State.schedulerLawful_iff.mp hs).1.planInFlight, hp⟩ hstep
    exact ⟨hserved.plan, fun w n p cl hw hk hr => hserved.plan.receiver hw hk hr⟩

end Sys2Proof
end

section
/-! SUPPORT. How the Claim Table answers CLAIM, RELEASE and SET_PACE, and the round that a first claim starts
(chapter 1, 2.2). -/

-- In sequence, as the sections above.
set_option Elab.async false

namespace Sys2Proof.Machine

/-! ### The checks of R17 -/

namespace State

variable {s : State} {p : Port} {rq : ClaimRequest}

theorem judgeClaim_conflict (h : ¬s.SameRange p rq) : s.judgeClaim p rq = some .conflict := by
  rw [← s.rangeConflict_iff, Bool.not_eq_false] at h
  simp [State.judgeClaim, h]

theorem judgeClaim_priorityFull (h : s.SameRange p rq) (hp : 2 < (s.candidateTable p rq).priorityChannels) :
    s.judgeClaim p rq = some .priorityFull := by
  have hp' : 2 < (s.claims.candidate p rq).priorityChannels := hp
  simp [State.judgeClaim, (s.rangeConflict_iff p rq).mpr h, hp']

/-- Without an interval there is no budget, so this covers a candidate table without one. -/
theorem judgeClaim_overload (h : s.SameRange p rq) (hp : (s.candidateTable p rq).priorityChannels ≤ 2)
    (ho : ∀ i, intervalOf s.sessions (s.candidateTable p rq) = some i →
      i * 875 < (s.candidateTable p rq).reserve) : s.judgeClaim p rq = some .overload := by
  have hp' : ¬2 < (s.claims.candidate p rq).priorityChannels := Nat.not_lt.mpr hp
  have hb : withinBudget (s.claims.candidate p rq).reserve (s.candidateInterval p rq) = false := by
    rw [Bool.eq_false_iff, ne_eq, withinBudget_iff]
    rintro ⟨hi, hle⟩
    obtain ⟨i, hi⟩ := Option.ne_none_iff_exists'.mp hi
    exact absurd (hle i hi) (Nat.not_le.mpr (ho i hi))
  simp [State.judgeClaim, (s.rangeConflict_iff p rq).mpr h, hp', hb]

theorem judgeClaim_admits (h : s.Admits p rq) : s.judgeClaim p rq = none := by
  obtain ⟨hr, hp, i, hi, hle⟩ := h
  have hp' : ¬2 < (s.claims.candidate p rq).priorityChannels := Nat.not_lt.mpr hp
  have hi' : s.candidateInterval p rq = some i := hi
  have hb : withinBudget (s.claims.candidate p rq).reserve (s.candidateInterval p rq) = true := by
    rw [hi']
    exact decide_eq_true hle
  simp [State.judgeClaim, (s.rangeConflict_iff p rq).mpr hr, hp', hb]

theorem tableTurnsNonEmpty_ports (t : Nat) : (s.tableTurnsNonEmpty t).ports = s.ports := by
  unfold State.tableTurnsNonEmpty
  split
  · split
    · rfl
    · split
      · exact State.boundary_ports s t
      · rfl
  all_goals rfl

/-- Taking a candidate leaves the ports alone. -/
theorem takeClaim_ports (t : Nat) : (s.takeClaim p rq t).ports = s.ports := by
  unfold State.takeClaim
  dsimp only
  split
  · rw [State.chooseIfIdle_ports, tableTurnsNonEmpty_ports]
    rfl
  · rfl

/-- A CLAIM refused by a check of R17 changes nothing else. -/
theorem exec_claim_refused {t : Nat} {f : Frame} {st : Status} (ha : s.Asks p f .claim)
    (hr : readClaim f.payload = some rq) (hj : s.judgeClaim p rq = some st) :
    exec (.claim t p) s = .next { s with ports := s.answered p f st.code [] } :=
  congrArg Host.Outcome.next (State.serve_refused ha hr (by simp only [ownClaim, hj]))

/-- A CLAIM that passes takes the candidate and answers the round number from before (R18). -/
theorem exec_claim_taken {t : Nat} {f : Frame} (ha : s.Asks p f .claim)
    (hr : readClaim f.payload = some rq) (hadm : s.Admits p rq) :
    exec (.claim t p) s =
      .next { s.takeClaim p rq t with ports := s.answered p f 0 (u16 s.sched.nextRound.toNat) } := by
  have ho : ownClaim t p s rq = ⟨s.takeClaim p rq t, .ok, u16 s.sched.nextRound.toNat⟩ := by
    simp only [ownClaim, judgeClaim_admits hadm]
  refine congrArg Host.Outcome.next ((State.serve_asks ha hr ?_).trans ?_)
  · rw [ho]
    exact takeClaim_ports t
  · rw [ho]
    rfl

end State

/-! ### The first claim's round -/

/-- The plan's channels where it has one alone. -/
theorem planChannels_single {plan : Plan} {c : Channel} {e : PlanEntry} (hc : plan.get c = some e)
    (hd : ∀ d, d ≠ c → plan.get d = none) (pick : Channel → Profile → Bool) :
    planChannels plan pick = if pick c e.profile then [(c, e.profile)] else [] := by
  have hfilter : planChannels plan pick = (allChannels.filter (· = c)).filterMap fun d =>
      match plan.get d with
      | some e => if pick d e.profile then some (d, e.profile) else none
      | none => none := by
    rw [planChannels, List.filterMap_filter]
    congr 1
    funext d
    by_cases h : d = c
    · exact (if_pos (decide_eq_true h)).symm
    · simp [h, hd d h]
  have hone : allChannels.filter (· = c) = [c] := by
    rw [List.filter_eq, List.count_eq_one_of_mem (allChannels_eq_finRange ▸ List.nodup_finRange 16)
      (mem_allChannels c)]
    rfl
  rw [hfilter, hone]
  simp only [List.filterMap_cons, hc, List.filterMap_nil]
  split <;> split <;> simp_all

/-- The slot list of a plan with one channel, which is due: its slot alone (R38). -/
theorem slotList_single {plan : Plan} {c : Channel} {e : PlanEntry} {r : RoundNumber}
    (hc : plan.get c = some e) (hd : ∀ d, d ≠ c → plan.get d = none) (hdue : e.profile.due c r = true) :
    slotList plan r = [⟨c, 0, e.profile⟩] := by
  rw [slotList, planChannels_single hc hd, planChannels_single hc hd, hdue]
  cases e.profile.priority <;> rfl

/-- The profile of a channel with one claim is that claim's own (R6). -/
theorem ClaimTable.profile_candidate {ct : ClaimTable} {p : Port} {rq : ClaimRequest}
    (h : ct.isEmpty = true) : (ct.candidate p rq).profile rq.channel = some rq.terms.newClaim.profile := by
  have hnone := ClaimTable.isEmpty_iff.mp h
  have hone : (ct.candidate p rq).onChannel rq.channel = [rq.terms.newClaim] := by
    cases p <;> simp [ClaimTable.onChannel, ClaimTable.candidate, ClaimTable.get_set, allPorts, hnone]
  rw [ClaimTable.profile, hone]
  rfl

theorem ClaimTable.profile_candidate_ne {ct : ClaimTable} {p : Port} {rq : ClaimRequest} {c : Channel}
    (h : ct.isEmpty = true) (hc : c ≠ rq.channel) : (ct.candidate p rq).profile c = none := by
  rw [ClaimTable.profile_none]
  intro q
  rw [ClaimTable.candidate, ClaimTable.get_set, if_neg fun hq => hc hq.2, ClaimTable.isEmpty_iff.mp h]

theorem ClaimTable.candidate_not_empty (ct : ClaimTable) (p : Port) (rq : ClaimRequest) :
    (ct.candidate p rq).isEmpty = false := by
  rw [Bool.eq_false_iff, ne_eq, ClaimTable.isEmpty_iff]
  intro h
  have := h p rq.channel
  rw [ClaimTable.candidate, ClaimTable.get_set, if_pos ⟨rfl, rfl⟩] at this
  cases this

/-- A boundary over claims: RUNNING or DONE by its slot list, at position 0, under the next number. -/
theorem State.boundary_started {s : State} (t : Nat) (h : s.claims.isEmpty = false) :
    ((s.boundary t).sched.state =
        if (slotList (s.boundary t).sched.plan s.sched.nextRound).isEmpty then .done else .running) ∧
      (s.boundary t).sched.slotPosition = 0 ∧
      (s.boundary t).sched.currentRound = some s.sched.nextRound ∧
      (s.boundary t).sched.nextRound = s.sched.nextRound + 1 := by
  rw [State.boundary_nonempty t h]
  simp only [State.takeSnapshot, Scheduler.startRound, and_true, and_self]
  rfl

/-- A first claim, on a channel due in the next round, starts a round of one slot: that of its channel (R30,
R35, R38). -/
theorem State.boundary_firstClaim {s : State} {p : Port} {rq : ClaimRequest} (t : Nat)
    (he : s.claims.isEmpty = true)
    (hdue : dueInRound rq.terms.period rq.channel s.sched.nextRound = true) :
    ((s.setClaims (s.claims.candidate p rq)).boundary t).sched.slots =
        [⟨rq.channel, 0, rq.terms.newClaim.profile⟩] ∧
      ((s.setClaims (s.claims.candidate p rq)).boundary t).sched.state = .running ∧
      ((s.setClaims (s.claims.candidate p rq)).boundary t).sched.slotPosition = 0 := by
  have hne : (s.setClaims (s.claims.candidate p rq)).claims.isEmpty = false :=
    s.claims.candidate_not_empty p rq
  obtain ⟨hstate, hpos, -⟩ := State.boundary_started t hne
  have hslots := State.boundary_slots t hne
  have hplan := fun c => (s.setClaims (s.claims.candidate p rq)).boundary_plan t c
  generalize (s.setClaims (s.claims.candidate p rq)).boundary t = u at hstate hpos hslots hplan ⊢
  have hlist : slotList u.sched.plan s.sched.nextRound = [⟨rq.channel, 0, rq.terms.newClaim.profile⟩] := by
    have hprofile : (s.setClaims (s.claims.candidate p rq)).profile rq.channel =
        some rq.terms.newClaim.profile := ClaimTable.profile_candidate he
    have hc := hplan rq.channel
    rw [hprofile] at hc
    refine slotList_single hc (fun d hd => ?_) ?_
    · have hnone : (s.setClaims (s.claims.candidate p rq)).profile d = none :=
        ClaimTable.profile_candidate_ne he hd
      rw [hplan d, hnone]
      rfl
    · exact Bool.or_eq_true_iff.mpr (.inr hdue)
  refine ⟨hslots.trans hlist, ?_, hpos⟩
  rw [hstate]
  change (if (slotList u.sched.plan s.sched.nextRound).isEmpty then _ else _) = _
  rw [hlist]
  rfl

/-- The notice to a STOPPED Scheduler with work in flight sets start pending (R30). -/
theorem State.tableTurnsNonEmpty_busy {s : State} {t : Nat} (hs : s.sched.state = .stopped)
    (hw : s.conv.work ≠ none) :
    s.tableTurnsNonEmpty t = s.setSched { s.sched with startPending := true } := by
  have hw' : s.conv.work.isNone = false := by simpa [Option.isSome_iff_ne_none] using hw
  have hpending : s.sched.startPending = true → s = s.setSched { s.sched with startPending := true } :=
    fun hp => by rw [← hp]; rfl
  unfold State.tableTurnsNonEmpty
  rw [hs, hw']
  cases hp : s.sched.startPending with
  | false => rfl
  | true => exact hpending hp

/-- In the other states the notice changes nothing (R30). -/
theorem State.tableTurnsNonEmpty_other {s : State} {t : Nat} (hs : s.sched.state ≠ .stopped) :
    s.tableTurnsNonEmpty t = s := by
  unfold State.tableTurnsNonEmpty
  cases h : s.sched.state with
  | stopped => exact absurd h hs
  | running | done | late => rfl

/-- An IDLE Converter without interstitial work takes the offered slot of a round (R51 rule 2). -/
theorem State.chooseIfIdle_slot {u : State} {sl : PlanSlot} {rest : List PlanSlot} (t : Nat)
    (hw : u.conv.work = none) (hr : u.sched.inRound = true) (hslots : u.sched.remainingSlots = sl :: rest)
    (hi : u.interstitialEligible = false) (hh : u.isHeld sl.channel = false) :
    u.chooseIfIdle t = u.takeSlot sl t := by
  rw [State.chooseIfIdle_idle t hw, State.choose_plan t hr (.inr hi)]
  exact State.slotTurn_take t _ hslots hh

/-- What is held and what is eligible does not depend on a boundary. -/
theorem State.boundary_isHeld (s : State) (t : Nat) (c : Channel) :
    (s.boundary t).isHeld c = s.isHeld c := by
  rw [State.boundary_frame]
  rfl

theorem State.boundary_eligible (s : State) (t : Nat) :
    (s.boundary t).interstitialEligible = s.interstitialEligible := by
  rw [State.boundary_frame]
  rfl

/-- A boundary out of an empty plan, without an interval in service, queues no change event and marks no
entry. -/
theorem State.boundary_from_rest {s : State} (t : Nat) (hp : ∀ c, s.sched.plan.get c = none)
    (hi : s.sched.snapshotInterval = none) :
    (s.boundary t).events = s.events ∧ (s.boundary t).table = s.table := by
  have hmark : ∀ new, markLeaving s.table s.sched.plan new = s.table := fun new => by
    refine PerChannel.ext_get fun c => ?_
    rw [markLeaving, PerChannel.get_tabulate, hp c]
    rfl
  have hevents : s.boundaryEvents = [] := by
    have hpace : ∀ new l, paceChanges none new l = [] := fun _ _ => rfl
    rw [State.boundaryEvents, hi, hpace, List.append_nil, profileChanges, List.flatMap_eq_nil_iff]
    intro c _
    simp only [profileChangesOf, hp c]
  cases h : s.claims.isEmpty with
  | true =>
    rw [State.boundary_empty t h]
    exact ⟨rfl, hmark _⟩
  | false =>
    rw [State.boundary_nonempty t h]
    simp only [State.takeSnapshot, hevents, hmark, State.handEvents, and_self]

/-! ### The effective round interval (R13) -/

/-- The interval is the least pace. -/
theorem intervalOf_eq_some_iff {ss : PerPort Session} {ct : ClaimTable} {i : Nat} :
    intervalOf ss ct = some i ↔
      (∃ p, paceOf ss ct p = some i) ∧ ∀ p j, paceOf ss ct p = some j → i ≤ j := by
  have hport : ∀ P : Port → Prop, (∃ p, P p) ↔ P .A ∨ P .B ∨ P .C := fun P =>
    ⟨fun ⟨p, hp⟩ => by cases p <;> simp [hp], fun h => by
      rcases h with h | h | h <;> exact ⟨_, h⟩⟩
  have hall : ∀ P : Port → Prop, (∀ p, P p) ↔ P .A ∧ P .B ∧ P .C := fun P =>
    ⟨fun h => ⟨h _, h _, h _⟩, fun ⟨ha, hb, hc⟩ p => by cases p <;> assumption⟩
  rw [hport, hall, intervalOf]
  generalize paceOf ss ct .A = a
  generalize paceOf ss ct .B = b
  generalize paceOf ss ct .C = c
  cases a <;> cases b <;> cases c <;> simp [minInterval] <;> omega

/-- A holder's new pace that is not below the interval leaves one between the two (R20 case 3). -/
theorem State.intervalOf_writePace {s : State} {p : Port} {pace i : Nat}
    (hi : s.effectiveInterval = some i) (hh : s.claims.holdsClaim p = true) (hle : i ≤ pace)
    (ho : (s.sessionOf p).isOpen = true) :
    ∃ j, i ≤ j ∧ j ≤ pace ∧ (s.writePace p pace).effectiveInterval = some j := by
  have hpaced : paceOf (s.writePace p pace).sessions s.claims p = some pace :=
    paceOf_eq_some_iff.mpr (by
      have : (s.writePace p pace).sessions.get p = { s.sessionOf p with pace := some pace } :=
        PerPort.get_set_self _ _ _
      rw [this]
      exact ⟨ho, hh, rfl⟩)
  obtain ⟨-, hleast⟩ := intervalOf_eq_some_iff.mp hi
  cases hj : (s.writePace p pace).effectiveInterval with
  | none =>
    cases hpaced.symm.trans (intervalOf_eq_none_iff.mp hj p)
  | some j =>
    obtain ⟨⟨q, hq⟩, hleast'⟩ := intervalOf_eq_some_iff.mp hj
    refine ⟨j, ?_, hleast' p pace hpaced, rfl⟩
    by_cases hqp : q = p
    · subst hqp
      obtain rfl := Option.some.inj (hpaced.symm.trans hq)
      exact hle
    · refine hleast q j ?_
      rw [← hq]
      simp only [paceOf, State.writePace, State.setSession_sessions, PerPort.get_set_ne _ _ hqp,
        State.setSession_claims]

/-- The pace of a session without claims has no part in the interval (R20 case 1). -/
theorem State.effectiveInterval_writePace {s : State} {p : Port} (pace : Nat)
    (h : s.claims.holdsClaim p = false) :
    (s.writePace p pace).effectiveInterval = s.effectiveInterval := by
  have hpace : ∀ q, paceOf (s.writePace p pace).sessions s.claims q = paceOf s.sessions s.claims q := by
    intro q
    by_cases hqp : q = p
    · subst hqp
      simp only [paceOf, h, Bool.and_false, Bool.false_eq_true, if_false]
    · simp only [paceOf, State.writePace, State.setSession_sessions, PerPort.get_set_ne _ _ hqp]
  change intervalOf _ s.claims = intervalOf _ s.claims
  simp only [intervalOf, hpace]

/-- A holder's new pace below the interval becomes the interval (R20 case 2). -/
theorem State.effectiveInterval_writePace_below {s : State} {p : Port} {pace i : Nat}
    (hi : s.effectiveInterval = some i) (hh : s.claims.holdsClaim p = true) (hlt : pace < i)
    (ho : (s.sessionOf p).isOpen = true) : (s.writePace p pace).effectiveInterval = some pace := by
  obtain ⟨-, hleast⟩ := intervalOf_eq_some_iff.mp hi
  refine intervalOf_eq_some_iff.mpr ⟨⟨p, ?_⟩, fun q j hq => ?_⟩
  · have : (s.writePace p pace).sessions.get p = { s.sessionOf p with pace := some pace } :=
      PerPort.get_set_self _ _ _
    rw [paceOf_eq_some_iff, this]
    exact ⟨ho, hh, rfl⟩
  · by_cases hqp : q = p
    · subst hqp
      obtain ⟨-, -, hj⟩ := paceOf_eq_some_iff.mp hq
      rw [State.writePace, State.setSession_sessions, PerPort.get_set_self] at hj
      exact (Option.some.inj hj).le
    · refine hlt.le.trans (hleast q j ?_)
      rw [← hq]
      simp only [paceOf, State.writePace, State.setSession_sessions, PerPort.get_set_ne _ _ hqp,
        State.setSession_claims]

/-- A SET_PACE that R20 takes writes the pace and answers the interval that it leaves. -/
theorem State.exec_setPace_taken {s : State} {p : Port} {f : Frame} {pace : Nat}
    (ha : s.Asks p f .setPace) (hr : readPace f.payload = some pace)
    (h : s.paceOverload p pace = false) :
    exec (.setPace p) s =
      .next
        { s with
          sessions := s.sessions.set p { s.sessionOf p with pace := some pace }
          ports := s.answered p f 0 (u16 ((s.writePace p pace).effectiveInterval.getD 0)) } := by
  have ho : ownSetPace p s pace =
      ⟨s.writePace p pace, .ok, u16 ((s.writePace p pace).effectiveInterval.getD 0)⟩ := by
    simp only [ownSetPace, h, Bool.false_eq_true, if_false]
  refine congrArg Host.Outcome.next ((State.serve_asks ha hr ?_).trans ?_) <;>
    · rw [ho]
      rfl

end Sys2Proof.Machine
end

section
/-! The statements of the Claim Table's requests. -/

-- In sequence, as the sections above.
set_option Elab.async false

namespace Sys2Proof

open Machine

/-- Settles O8: over a table that is not empty the Scheduler has no notice to take. -/
theorem claimTakenIntoTheTable : Obligations.ClaimTakenIntoTheTable := by
  intro s t p f rq ha hr hadm he
  have htake : s.takeClaim p rq t = s.setClaims (s.claims.candidate p rq) := by
    simp only [State.takeClaim, he, Bool.false_eq_true, if_false]
  rw [State.exec_claim_taken ha hr hadm, htake]
  rfl

/-- Settles O9, by the Scheduler's state; the slot of a STOPPED part at rest is its plan's only one. -/
theorem firstClaimStartsARound : Obligations.FirstClaimStartsARound := by
  intro s t p f rq ha hr hadm he
  have htake : s.takeClaim p rq t =
      ((s.setClaims (s.claims.candidate p rq)).tableTurnsNonEmpty t).chooseIfIdle t := by
    simp only [State.takeClaim, he, if_true]
  have hrest : s.sched.state = .stopped → s.sched.startPending = false → s.conv.work = none →
      exec (.claim t p) s =
        .next
          { (((s.setClaims (s.claims.candidate p rq)).boundary t).chooseIfIdle t) with
            ports := s.answered p f 0 (u16 s.sched.nextRound.toNat) } := fun hs hp hw => by
    rw [State.exec_claim_taken ha hr hadm, htake]
    simp only [State.tableTurnsNonEmpty, State.setClaims_sched, State.setClaims_conv, hs, hp, hw,
      Bool.false_eq_true, if_false, Option.isNone_none, if_true]
  refine ⟨hrest, fun hs hw => ?_, fun hs => ?_, fun hl hs hw hi hh hdue => ?_⟩
  · rw [State.exec_claim_taken ha hr hadm, htake, State.tableTurnsNonEmpty_busy (by exact hs) (by exact hw),
      State.chooseIfIdle_busy t (by exact hw)]
    rfl
  · rw [State.exec_claim_taken ha hr hadm, htake, State.tableTurnsNonEmpty_other (by exact hs)]
    rfl
  · obtain ⟨hset, -⟩ := State.schedulerLawful_iff.mp hl
    have hpend : s.sched.startPending = false := by
      cases hp : s.sched.startPending with
      | false => rfl
      | true => exact absurd hw (Option.isSome_iff_ne_none.mp (hset.startPending hp))
    obtain ⟨hslots, hstate, hpos⟩ := State.boundary_firstClaim (p := p) t he (dueInRound_iff.mpr hdue)
    have hchoose := State.chooseIfIdle_slot (u := (s.setClaims (s.claims.candidate p rq)).boundary t) t
      (by rw [State.boundary_conv]; exact hw) (by rw [Scheduler.inRound, hstate]; rfl)
      (by rw [Scheduler.remainingSlots, hslots, hpos]; rfl)
      (by rw [State.boundary_eligible]; exact hi) (by rw [State.boundary_isHeld]; exact hh)
    obtain ⟨-, -, hcurrent, hnext⟩ := State.boundary_started (s := s.setClaims (s.claims.candidate p rq)) t
      (s.claims.candidate_not_empty p rq)
    obtain ⟨hplan, -, hinterval, -⟩ := hset.consistent.stopped hs
    obtain ⟨hevents, htable⟩ := State.boundary_from_rest (s := s.setClaims (s.claims.candidate p rq)) t hplan
      hinterval
    refine ⟨_, hrest hs hpend hw, ?_⟩
    rw [hchoose]
    refine ⟨hstate, hcurrent, hnext, ?_, fun q c hq => ?_, ?_, State.boundary_demand _ t,
      State.boundary_capture _ t, ?_, State.boundary_results _ t, ?_, State.boundary_sessions _ t, rfl,
      State.boundary_rstnAsserted _ t⟩
    · exact (State.boundary_claims _ t p rq.channel).trans (by
        rw [State.setClaims_claims, ClaimTable.candidate, ClaimTable.get_set, if_pos ⟨rfl, rfl⟩]
        rfl)
    · exact (State.boundary_claims _ t q c).trans (by
        rw [State.setClaims_claims, ClaimTable.candidate, ClaimTable.get_set,
          if_neg fun h => hq (Prod.ext h.1 h.2), ClaimTable.isEmpty_iff.mp he]
        rfl)
    · exact congrArg (fun x : Converter =>
        { x with work := some (startWork (.plan 0) rq.channel rq.terms.range rq.terms.resolution rq.terms.hold t) })
        (State.boundary_conv _ t)
    · exact htable
    · exact hevents

/-- Settles O10, check by check. -/
theorem claimRefusedInOrder : Obligations.ClaimRefusedInOrder := fun _ _ _ _ _ ha hr =>
  ⟨fun h => State.exec_claim_refused ha hr (State.judgeClaim_conflict h),
    fun h hp => State.exec_claim_refused ha hr (State.judgeClaim_priorityFull h hp),
    fun h hp ho => State.exec_claim_refused ha hr (State.judgeClaim_overload h hp ho)⟩

/-- Settles O11, by whether the session holds a claim on the channel. -/
theorem releaseRemovesTheClaim : Obligations.ReleaseRemovesTheClaim := by
  intro s p f c ha hr
  refine ⟨fun h => ?_, fun h => ?_⟩
  · obtain ⟨cl, hcl⟩ := Option.ne_none_iff_exists'.mp h
    have ho : ownRelease p s c = ⟨s.setClaims (s.claims.set p c none), .ok, []⟩ := by
      simp only [ownRelease, hcl]
    refine congrArg Host.Outcome.next ((State.serve_asks ha hr (by rw [ho]; rfl)).trans ?_)
    rw [ho]
    rfl
  · exact congrArg Host.Outcome.next (State.serve_refused ha hr (st := .notFound) (by simp only [ownRelease, h]))

/-- Settles O12: the interval is the least pace, and R20's three cases are those of the overload test. -/
theorem setPaceByCase : Obligations.SetPaceByCase := by
  refine ⟨fun _ => rfl, fun sessions ct => ⟨fun i => ?_, fun h => ?_, fun p => ClaimTable.holdsClaim_iff, ?_⟩,
    fun s p f pace ha hr => ⟨fun hh => ?_, fun hh i hi => ?_⟩⟩
  · simpa only [paceOf_eq_some_iff] using intervalOf_eq_some_iff
  · exact intervalOf_eq_none_iff.mpr fun p => by simp [paceOf, h p]
  · rw [ClaimTable.isEmpty_iff]
    simp only [← Bool.not_eq_true, ClaimTable.holdsClaim_iff, not_exists, Option.eq_none_iff_forall_ne_some, ne_eq]
  · rw [State.exec_setPace_taken ha hr (by simp [State.paceOverload, hh]),
      State.effectiveInterval_writePace pace hh]
  · have hopen : (s.sessionOf p).isOpen = true := ha.2.2.1 rfl
    have hover : s.paceOverload p pace = (decide (pace < i) && decide (pace * 875 < s.claims.reserve)) := by
      simp only [State.paceOverload, hh, hi, Bool.true_and]
      rfl
    refine ⟨fun hlt hle => ?_, fun hlt hlt' => ?_, fun hle => ?_⟩
    · rw [State.exec_setPace_taken ha hr (by simp [hover, Nat.not_lt.mpr hle]),
        State.effectiveInterval_writePace_below hi hh hlt hopen]
      rfl
    · refine congrArg Host.Outcome.next (State.serve_refused ha hr (st := .overload) ?_)
      simp [ownSetPace, hover, hlt, hlt']
    · obtain ⟨j, hij, hj, hinterval⟩ := State.intervalOf_writePace hi hh hle hopen
      refine ⟨j, hij, hj, hinterval, ?_⟩
      rw [State.exec_setPace_taken ha hr (by simp [hover, Nat.not_lt.mpr hle]), hinterval]
      rfl

end Sys2Proof
end

section
/-! SUPPORT. The order of a round's slots, and the parts of a round boundary one by one (chapter 2). -/

-- In sequence, as the sections above.
set_option Elab.async false

namespace Sys2Proof.Machine

/-! ### The order of the slots (R38) -/

/-- A list with the same run before each of its elements, read at an index. -/
theorem getElem?_flatMap_prefix {α : Type} (pre l : List α) {j : Nat} (h : j < l.length * (pre.length + 1)) :
    (l.flatMap fun x => pre ++ [x])[j]? =
      if j % (pre.length + 1) < pre.length then pre[j % (pre.length + 1)]? else l[j / (pre.length + 1)]? := by
  induction l generalizing j with
  | nil => simp at h
  | cons x l ih =>
    rw [List.flatMap_cons]
    by_cases hj : j < pre.length + 1
    · rw [List.getElem?_append_left (by simpa using hj), Nat.mod_eq_of_lt hj, Nat.div_eq_of_lt hj]
      split
      · rename_i hlt
        rw [List.getElem?_append_left hlt]
      · rename_i hge
        obtain rfl : j = pre.length := by omega
        simp
    · have hge : pre.length + 1 ≤ j := Nat.le_of_not_lt hj
      have hrest : j - (pre.length + 1) < l.length * (pre.length + 1) := by
        rw [List.length_cons, Nat.succ_mul] at h
        omega
      rw [List.getElem?_append_right (by simpa using hge), List.length_append, List.length_singleton,
        ih hrest, ← Nat.mod_eq_sub_mod hge, Nat.div_eq_sub_div (by omega) hge, List.getElem?_cons_succ]

theorem slotOrder_of_nil (priority : List (Channel × Profile)) : slotOrder [] priority = priority := by
  unfold slotOrder
  cases priority <;> rfl

/-- With a due normal channel every one has the priority channels before it, none if there are none. -/
theorem slotOrder_of_ne_nil {normal : List (Channel × Profile)} (priority : List (Channel × Profile))
    (h : normal ≠ []) : slotOrder normal priority = normal.flatMap fun x => priority ++ [x] := by
  unfold slotOrder
  have hn : normal.isEmpty = false := by simpa using h
  cases priority with
  | nil => simp
  | cons x l => simp [hn]

theorem numberSlots_channels (i : Nat) (l : List (Channel × Profile)) :
    (numberSlots i l).map (·.channel) = l.map (·.1) := by
  induction l generalizing i with
  | nil => rfl
  | cons x l ih => simp [numberSlots, ih]

/-- The channels of a round's slots, from the due normal channels and the priority channels. -/
theorem slotList_channels (plan : Plan) (r : RoundNumber) :
    (planDueNormal plan r = [] → (slotList plan r).map (·.channel) = planPriority plan) ∧
      (planDueNormal plan r ≠ [] →
        (slotList plan r).map (·.channel) =
          (planDueNormal plan r).flatMap fun c => planPriority plan ++ [c]) := by
  have hp : (planChannels plan fun _ f => f.priority).map (·.1) = planPriority plan := planChannels_map _ _
  have hn : (planChannels plan fun c f => !f.priority && f.due c r).map (·.1) = planDueNormal plan r := by
    rw [planChannels_map, planDueNormal]
    congr 2
    funext c
    cases plan.get c with
    | none => rfl
    | some e =>
      rw [Option.any_some, Option.any_some, Profile.due, dueInRound, Bool.beq_eq_decide_eq]
      cases e.profile.priority <;> rfl
  rw [slotList, numberSlots_channels, ← hp, ← hn]
  generalize planChannels plan (fun c f => !f.priority && f.due c r) = normal
  generalize planChannels plan (fun _ f => f.priority) = priority
  refine ⟨fun h => ?_, fun h => ?_⟩
  · rw [List.map_eq_nil_iff.mp h, slotOrder_of_nil]
  · rw [slotOrder_of_ne_nil priority (by simpa using h), List.map_flatMap, List.flatMap_map]
    simp only [List.map_append, List.map_cons, List.map_nil]

/-! ### A boundary, part by part -/

theorem State.boundary_sched_empty {s : State} (t : Nat) (h : s.claims.isEmpty = true) :
    (s.boundary t).sched =
      { s.sched with
        state := .stopped
        plan := .const none
        slots := []
        slotPosition := 0
        snapshotInterval := none
        pacingTimer := none } := by
  rw [State.boundary_empty t h]
  simp only [State.stopScheduler]

/-- A boundary marks the VALID entries of the channels that leave the plan (R32, R35). -/
theorem State.boundary_table (s : State) (t : Nat) (c : Channel) :
    (s.boundary t).table.get c =
      if (s.sched.plan.get c).isSome ∧ s.profile c = none ∧ (s.table.get c).valid = true then
        { s.table.get c with stale := true }
      else s.table.get c := by
  have hmark : ∀ new : Plan, (new.get c).map (·.profile) = s.profile c →
      (markLeaving s.table s.sched.plan new).get c =
        if (s.sched.plan.get c).isSome ∧ s.profile c = none ∧ (s.table.get c).valid = true then
          { s.table.get c with stale := true }
        else s.table.get c := fun new hnew => by
    have hnone : (new.get c).isNone = (s.profile c).isNone := by rw [← hnew, Option.isNone_map]
    rw [markLeaving, PerChannel.get_tabulate, hnone, TableEntry.markStale]
    cases s.profile c <;> cases (s.sched.plan.get c).isSome <;> simp
  cases h : s.claims.isEmpty with
  | true =>
    rw [State.boundary_empty t h]
    refine hmark _ ?_
    rw [PerChannel.get_const, State.profile,
      ClaimTable.profile_none.mpr fun p => ClaimTable.isEmpty_iff.mp h p c]
    rfl
  | false =>
    rw [State.boundary_nonempty t h]
    refine hmark _ ?_
    rw [s.snapshot_get, Option.map_map]
    exact congrFun Option.map_id _

theorem State.boundary_plan_profile (s : State) (t : Nat) (c : Channel) :
    ((s.boundary t).sched.plan.get c).map (·.profile) = s.profile c := by
  rw [State.boundary_plan, Option.map_map]
  exact congrFun Option.map_id _

theorem State.boundary_plan_holders {s : State} {t : Nat} {c : Channel} {e : PlanEntry} (p : Port)
    (h : (s.boundary t).sched.plan.get c = some e) : e.holders.get p = (s.claimOf p c).isSome := by
  rw [State.boundary_plan, Option.map_eq_some_iff] at h
  obtain ⟨f, -, rfl⟩ := h
  exact s.holders_get p c

/-- The slot position after a boundary is 0, over claims and over none (R35, log entry 9). -/
theorem State.boundary_slotPosition (s : State) (t : Nat) : (s.boundary t).sched.slotPosition = 0 := by
  cases h : s.claims.isEmpty with
  | true => rw [State.boundary_sched_empty t h]
  | false => exact (State.boundary_started t h).2.1

/-! ### What a boundary reads of the claims

A boundary's plan and events depend on the terms of the claims alone, so a value delivered before it does not
change them. -/

/-- Two states with the same sessions whose claims have the same terms. -/
structure State.SameTerms (s u : State) : Prop where
  terms : ∀ p c, (u.claims.get p c).map Claim.terms = (s.claims.get p c).map Claim.terms
  sessions : u.sessions = s.sessions

namespace State.SameTerms

variable {s u : State}

theorem profile (h : s.SameTerms u) (c : Channel) : u.profile c = s.profile c :=
  ClaimTable.profile_congr h.terms c

theorem effectiveInterval (h : s.SameTerms u) : u.effectiveInterval = s.effectiveInterval := by
  rw [State.effectiveInterval, h.sessions]
  exact intervalOf_congr h.terms _

theorem isEmpty (h : s.SameTerms u) : u.claims.isEmpty = s.claims.isEmpty :=
  ClaimTable.isEmpty_congr h.terms

theorem holdsClaim (h : s.SameTerms u) (p : Port) : u.claims.holdsClaim p = s.claims.holdsClaim p :=
  ClaimTable.holdsClaim_congr h.terms p

theorem claimOf_isSome (h : s.SameTerms u) (p : Port) (c : Channel) :
    (u.claimOf p c).isSome = (s.claimOf p c).isSome :=
  ClaimTable.isSome_congr h.terms p c

theorem changesFor (h : s.SameTerms u) (hplan : u.sched.plan = s.sched.plan)
    (hinterval : u.sched.snapshotInterval = s.sched.snapshotInterval) (p : Port) :
    u.changesFor p = s.changesFor p := by
  have hprofile : ∀ c, u.profileChangeFor p c = s.profileChangeFor p c := fun c => by
    rw [State.profileChangeFor, State.profileChangeFor, hplan, h.profile, h.claimOf_isSome]
  rw [State.changesFor, State.changesFor, State.paceChangeFor, State.paceChangeFor, hinterval,
    h.effectiveInterval, h.holdsClaim, funext hprofile]

/-- The delivery of a plan value leaves every claim its terms (R63). -/
theorem deliverPlan (s : State) (w : Work) (slot : Nat) :
    s.SameTerms (s.deliverPlan w slot (s.workCode w) (s.workClip w)) := by
  refine ⟨fun p c => ?_, by rw [State.deliverPlan_frame]⟩
  have hclaim := (s.deliverPlan_spec w slot).2.2 p c
  change Option.map Claim.terms ((s.deliverPlan w slot (s.workCode w) (s.workClip w)).claimOf p c) = _
  rw [hclaim]
  split
  · rename_i hc
    subst hc
    cases hr : s.receiver p w with
    | none => rfl
    | some cl =>
      obtain ⟨hcl, -⟩ := State.receiver_iff.mp hr
      have hcl' : s.claims.get p w.channel = some cl := hcl
      rw [hcl']
      rfl
  · rfl

end State.SameTerms

/-! ### The finishing of a slot (R58 step 3) -/

theorem State.finishSlot_last {s : State} {w : Work} {slot : Nat} (hk : w.kind = .plan slot)
    (h : slot + 1 = s.sched.slots.length) : s.finishSlot w = s.lastSlotFinished w.finish := by
  simp only [State.finishSlot, hk, h, if_true]

theorem State.finishSlot_not_last {s : State} {w : Work} {slot : Nat} (hk : w.kind = .plan slot)
    (h : slot + 1 ≠ s.sched.slots.length) : s.finishSlot w = s := by
  simp only [State.finishSlot, hk, h, if_false]

theorem State.finishSlot_demand {s : State} {w : Work} {tag : Tag} {p : Port} {gone : Bool}
    (hk : w.kind = .demand tag p gone) : s.finishSlot w = s := by
  simp only [State.finishSlot, hk]

theorem State.finishSlot_capture {s : State} {w : Work} {tag : Tag} {pos : Nat}
    (hk : w.kind = .capture tag pos) : s.finishSlot w = s := by
  simp only [State.finishSlot, hk]

/-! ### The last slot of a late round -/

/-- What a late round's finishing takes to its boundary: the ROUND_SLIP events handed over, and no ticks lost
(R29). -/
def State.slipped (s : State) : State :=
  (s.handEvents s.slipEvents).setSched { s.sched with ticksLost := 0 }

theorem State.lastSlotFinished_late {s : State} (t : Nat) (h : s.sched.state = .late) :
    s.lastSlotFinished t = s.slipped.boundary t := by
  simp only [State.lastSlotFinished, h, State.slipped]

theorem State.slipped_frame (s : State) :
    s.slipped = { s with events := s.slipped.events, sched := { s.sched with ticksLost := 0 } } := by
  unfold State.slipped
  rw [State.handEvents_frame]
  rfl

@[simp] theorem State.slipped_claims (s : State) : s.slipped.claims = s.claims := by rw [State.slipped_frame]

@[simp] theorem State.slipped_results (s : State) : s.slipped.results = s.results := by rw [State.slipped_frame]

theorem State.slipped_eventsOf (s : State) (p : Port) :
    s.slipped.eventsOf p = (s.slipFor p).foldl EventQueue.append (s.eventsOf p) := by
  rw [← s.slipEvents_own, ← s.handEvents_eventsOf]
  rfl

/-- The state that the finishing of a late round takes to its boundary, after the last slot's value is delivered and
the work record released. -/
def State.slippedAfter (s : State) (w : Work) (slot : Nat) : State :=
  ((s.deliverPlan w slot (s.workCode w) (s.workClip w)).releaseWork w).slipped

section slippedAfter

variable {s : State} {w : Work} {slot : Nat}

theorem State.slippedAfter_frame (hk : w.kind = .plan slot) :
    ∃ claims results events,
      s.slippedAfter w slot =
        { s with
          claims := claims
          sched := { s.sched with ticksLost := 0 }
          conv := { work := none, planMark := true }
          table := s.table.set w.channel
            (completedEntry (s.workCode w) (s.workClip w) w.resolution s.roundNow .plan)
          results := results
          events := events } := by
  have released : ∀ (claims : ClaimTable) (table : PerChannel TableEntry) results (events : PerPort EventQueue),
      ((({ s with claims, table, results, events } : State).releaseWork w).slipped) =
        { s with
          claims, table, results
          sched := { s.sched with ticksLost := 0 }
          conv := { work := none, planMark := true }
          events := (({ s with claims, table, results, events } : State).releaseWork w).slipped.events } :=
    fun _ _ _ _ => by
      rw [State.slipped_frame, State.releaseWork, hk]
      rfl
  rw [State.slippedAfter, State.deliverPlan_frame]
  exact ⟨_, _, _, released _ _ _ _⟩

theorem State.SameTerms.slippedAfter (hk : w.kind = .plan slot) : s.SameTerms (s.slippedAfter w slot) := by
  obtain ⟨_, _, _, hframe⟩ := State.slippedAfter_frame (s := s) hk
  refine ⟨fun p c => ?_, by rw [hframe]⟩
  rw [← (State.SameTerms.deliverPlan s w slot).terms, State.slippedAfter, State.slipped_claims,
    State.releaseWork, State.setConv_claims]

theorem State.slippedAfter_claimOf (p : Port) (c : Channel) :
    (s.slippedAfter w slot).claimOf p c =
      (s.deliverPlan w slot (s.workCode w) (s.workClip w)).claimOf p c := by
  rw [State.slippedAfter, State.claimOf, State.slipped_claims, State.releaseWork, State.setConv_claims]
  rfl

theorem State.slippedAfter_resultsOf (p : Port) :
    (s.slippedAfter w slot).resultsOf p = s.queueAfter p w slot := by
  rw [← (s.deliverPlan_spec w slot).1, State.slippedAfter, State.resultsOf, State.slipped_results,
    State.releaseWork, State.setConv_results]
  rfl

/-- A session is handed its window event and then its ROUND_SLIP (R29). -/
theorem State.slippedAfter_eventsOf (p : Port) :
    (s.slippedAfter w slot).eventsOf p =
      (s.windowEventFor p w ++ s.slipFor p).foldl EventQueue.append (s.eventsOf p) := by
  have hslip : ((s.deliverPlan w slot (s.workCode w) (s.workClip w)).releaseWork w).slipFor p = s.slipFor p := by
    unfold State.slipFor
    have hholds := (State.SameTerms.deliverPlan s w slot).holdsClaim p
    have hsched : (s.deliverPlan w slot (s.workCode w) (s.workClip w)).sched = s.sched := by
      rw [State.deliverPlan_frame]
    rw [State.releaseWork, State.setConv_claims, hholds, State.roundNow, State.setConv_sched, hsched]
    rfl
  rw [State.slippedAfter, State.slipped_eventsOf, hslip, List.foldl_append, ← (s.deliverPlan_spec w slot).2.1]
  rfl

/-- The completion of a late round's last slot: the boundary of what it leaves, and a choice (R29, R58). -/
theorem State.complete_late (hk : w.kind = .plan slot) (hlast : slot + 1 = s.sched.slots.length)
    (hlate : s.sched.state = .late) (hp : s.sched.startPending = false) :
    s.complete w = ((s.slippedAfter w slot).boundary w.finish).choose w.finish := by
  have hsched : ((s.deliverPlan w slot (s.workCode w) (s.workClip w)).releaseWork w).sched = s.sched := by
    rw [State.releaseWork, State.setConv_sched, State.deliverPlan_frame]
  rw [State.complete_eq, State.deliverResult_plan hk, State.finishSlot_last hk (by rw [hsched]; exact hlast),
    State.lastSlotFinished_late _ (by rw [hsched]; exact hlate), State.takeDeferredBoundary_none]
  · rfl
  · rw [State.boundary_startPending, State.slipped_frame, hsched]
    exact hp

end slippedAfter

end Sys2Proof.Machine
end

section
/-! The statements of the rounds. -/

-- In sequence, as the sections above.
set_option Elab.async false

namespace Sys2Proof

open Machine

/-- Settles O16: due normal channels each stand behind a run of the priority channels. -/
theorem slotListOrder : Obligations.SlotListOrder := by
  intro plan r
  obtain ⟨hnil, hsome⟩ := slotList_channels plan r
  refine ⟨hnil, fun hn => ⟨?_, fun j hj => ?_⟩,
    fun j sl hsl => ⟨?_, slotList_profile (List.mem_of_getElem? hsl)⟩⟩
  · have hlen := congrArg List.length (hsome hn)
    rw [List.length_map] at hlen
    rw [hlen, List.length_flatMap]
    simp
  · rw [← List.getElem?_map, hsome hn]
    exact getElem?_flatMap_prefix _ _ hj
  · rw [slotList, numberSlots_getElem?, Option.map_eq_some_iff] at hsl
    obtain ⟨x, -, rfl⟩ := hsl
    exact Nat.zero_add j

/-- Settles O17, by the Scheduler's state. -/
theorem tickByState : Obligations.TickByState := by
  intro s t i ht hi
  have hexec : exec .pacingTick s = .next (s.tick t) := by
    change execPacingTick s = _
    simp only [execPacingTick, ht]
  rw [hexec]
  refine ⟨fun h => ?_, fun h => ?_, fun h => ?_⟩ <;>
    simp only [State.tick, h, Scheduler.reloadTimer, hi, Option.map_some, ofMicros] <;> rfl

/-- Settles O18, part by part. -/
theorem boundaryTakesTheSnapshot : Obligations.BoundaryTakesTheSnapshot := by
  intro s t i he hi
  obtain ⟨hstate, hpos, hcurrent, hnext⟩ := s.boundary_started t he
  obtain ⟨hinterval, htimer⟩ := s.boundary_paced t he
  have hslots := s.boundary_slots t he
  rw [← hslots] at hstate
  refine ⟨s.boundary_claims t, s.boundary_plan_profile t, fun c e p => State.boundary_plan_holders p,
    hinterval.trans hi, ?_, hcurrent, hnext, hpos, hslots, fun h => ?_, fun h => ?_, s.boundary_ticksLost t,
    s.boundary_startPending t, s.boundary_table t, s.boundary_conv t, s.boundary_demand t,
    s.boundary_capture t, s.boundary_results t, s.boundary_sessions t, s.boundary_ports t,
    s.boundary_rstnAsserted t⟩
  · rw [htimer, hi]
    rfl
  · rw [hstate, h]
    rfl
  · rw [hstate, if_neg (by simpa using h)]

/-- Settles O20, by the equation of a boundary over no claims. -/
theorem boundaryOverAnEmptyTableStops : Obligations.BoundaryOverAnEmptyTableStops := by
  intro s t he
  refine ⟨(s.boundary t).table, .const none, ?_, fun c => PerChannel.get_const _ c, fun c => ?_⟩
  · rw [State.boundary_empty t he]
    rfl
  · have hnone : s.profile c = none := ClaimTable.profile_none.mpr fun p => ClaimTable.isEmpty_iff.mp he p c
    rw [s.boundary_table t c, hnone]
    simp

/-- Settles O21: the round's end hands ROUND_SLIP and takes a boundary, which reads only the terms of the claims
and so finds them as before the delivery. -/
theorem lateRoundSlips : Obligations.LateRoundSlips := by
  intro s w slot hw hk hlast hlate hpending
  dsimp only
  have hexec : exec .conversionComplete s = .next (s.complete w) := by
    change execConversionComplete s = _
    simp only [execConversionComplete, hw]
  have hterms := State.SameTerms.slippedAfter (s := s) hk
  have hclaims := State.slippedAfter_claimOf (s := s) (w := w) (slot := slot)
  have hresults := State.slippedAfter_resultsOf (s := s) (w := w) (slot := slot)
  have hevents := State.slippedAfter_eventsOf (s := s) (w := w) (slot := slot)
  obtain ⟨_, _, _, hframe⟩ := State.slippedAfter_frame (s := s) hk
  refine ⟨(s.slippedAfter w slot).boundary w.finish,
    hexec.trans (congrArg _ (State.complete_late hk hlast hlate hpending)), ?_⟩
  generalize s.slippedAfter w slot = x at *
  have hsched : x.sched = { s.sched with ticksLost := 0 } := by rw [hframe]
  have htable : ∀ c, x.table.get c = if c = w.channel then
      ⟨true, s.workCode w, w.resolution, s.roundNow, .plan, false, s.workClip w⟩ else s.table.get c := by
    intro c
    rw [hframe]
    exact PerChannel.get_set _ _ _ _
  refine ⟨?_, fun p => ?_, fun p => ?_, ?_, fun p c => ?_, fun c => ?_, fun c => ?_, fun c e p hc => ?_,
    x.boundary_slotPosition _, ?_, fun he => ?_, fun he => ?_, ?_, ?_, ?_, ?_, ?_⟩
  · rw [State.boundary_conv, hframe]
  · rw [State.boundary_eventsOf, hevents, hterms.changesFor (by rw [hsched]) (by rw [hsched]),
      ← List.foldl_append]
  · rw [State.resultsOf, State.boundary_results]
    exact hresults p
  · rw [State.boundary_ticksLost, hsched]
  · refine (x.boundary_claims _ p c).trans ?_
    change (x.claimOf p c).map _ = _
    rw [hclaims, (s.deliverPlan_spec w slot).2.2]
    rfl
  · rw [State.boundary_table, hterms.profile, hsched, htable]
  · rw [State.boundary_plan_profile, hterms.profile]
  · rw [State.boundary_plan_holders p hc, hterms.claimOf_isSome]
  · rw [State.boundary_startPending, hsched]
    exact hpending
  · have hx : x.claims.isEmpty = false := hterms.isEmpty.trans he
    obtain ⟨hstate, -, hcurrent, hnext⟩ := x.boundary_started w.finish hx
    obtain ⟨hinterval, htimer⟩ := x.boundary_paced w.finish hx
    have hslots := x.boundary_slots w.finish hx
    rw [← hslots] at hstate
    rw [hsched] at hslots hcurrent hnext
    refine ⟨hslots, ?_, hcurrent, hnext, hinterval.trans hterms.effectiveInterval, ?_⟩
    · rw [hstate]
      simp only [List.isEmpty_iff]
    · rw [htimer, hterms.effectiveInterval]
      rfl
  · rw [State.boundary_sched_empty _ (hterms.isEmpty.trans he), hsched]
    exact ⟨rfl, rfl, rfl, rfl, rfl, rfl⟩
  · rw [State.boundary_demand, hframe]
  · rw [State.boundary_capture, hframe]
  · rw [State.boundary_sessions, hframe]
  · rw [State.boundary_ports, hframe]
  · rw [State.boundary_rstnAsserted, hframe]

end Sys2Proof
end

section
/-! SUPPORT. Codes and reductions, what a completion leaves to the arbiter, and what the arbiter's choice takes
(chapter 3). -/

-- In sequence, as the sections above.
set_option Elab.async false

namespace Sys2Proof.Machine

/-! ### Codes (R57, R64) -/

theorem spanOf_pos (r : Range) : 0 < spanOf r := by
  cases r <;> decide

theorem codeMin_le_codeMax (r : Range) (res : Resolution) : codeMin r res ≤ codeMax r res := by
  cases r <;> cases res <;> decide

/-- The code of an input is in the code space (R57). -/
theorem codeOf_inCodeSpace (r : Range) (res : Resolution) (v : Int) :
    inCodeSpace r res (codeOf r res v) = true := by
  have hle := codeMin_le_codeMax r res
  rw [inCodeSpace_iff]
  unfold codeOf
  split
  · exact ⟨hle, le_rfl⟩
  · split
    · exact ⟨le_rfl, hle⟩
    · omega

theorem spanOf_eq (r : Range) : spanOf r = if r = .low then 1250000000 else 2500000000 := by
  cases r <;> rfl

theorem clipOf_eq_false {r : Range} {res : Resolution} {v : Int} (h : clipOf r res v = false) :
    codeOf r res v = idealCode r res v := by
  rw [clipOf, Bool.not_eq_false', inCodeSpace_iff] at h
  unfold codeOf
  rw [if_neg (by omega), if_neg (by omega)]

theorem clipOf_eq_true {r : Range} {res : Resolution} {v : Int} (h : clipOf r res v = true) :
    (codeOf r res v = codeMax r res ∧ codeMax r res < idealCode r res v) ∨
      (codeOf r res v = codeMin r res ∧ idealCode r res v < codeMin r res) := by
  have hle := codeMin_le_codeMax r res
  rw [clipOf, Bool.not_eq_true', ← Bool.not_eq_true, inCodeSpace_iff] at h
  unfold codeOf
  by_cases hmax : codeMax r res < idealCode r res v
  · exact .inl ⟨if_pos hmax, hmax⟩
  · have hmin : idealCode r res v < codeMin r res := by omega
    exact .inr ⟨by rw [if_neg hmax, if_pos hmin], hmin⟩

/-- The powers of two at which the code spaces of two resolutions meet. -/
theorem pow_resolutionBits {lo hi : Resolution} (h : resolutionBits lo ≤ resolutionBits hi) :
    (2 : Int) ^ resolutionBits hi = 2 ^ resolutionBits lo * 2 ^ (resolutionBits hi - resolutionBits lo) ∧
      (2 : Int) ^ (resolutionBits hi - 1) =
        2 ^ (resolutionBits lo - 1) * 2 ^ (resolutionBits hi - resolutionBits lo) := by
  have hlo : 1 ≤ resolutionBits lo := by cases lo <;> decide
  exact ⟨by rw [← pow_add]; congr 1; omega, by rw [← pow_add]; congr 1; omega⟩

/-- The reduction of a code stays in the code space of the lower resolution (R64). -/
theorem reduceCode_inCodeSpace {r : Range} {hi lo : Resolution} {x : Int}
    (h : resolutionBits lo ≤ resolutionBits hi) (hx : inCodeSpace r hi x = true) :
    inCodeSpace r lo (reduceCode x hi lo) = true := by
  obtain ⟨hfull, hhalf⟩ := pow_resolutionBits h
  rw [inCodeSpace_iff] at hx ⊢
  rw [reduceCode]
  have hd : (0 : Int) < 2 ^ (resolutionBits hi - resolutionBits lo) := by positivity
  revert hx
  generalize (2 : Int) ^ (resolutionBits hi - resolutionBits lo) = d at hfull hhalf hd
  cases r with
  | low | full =>
    rintro ⟨hmin, hmax⟩
    simp only [codeMin, codeMax, hfull] at hmin hmax ⊢
    exact ⟨Int.ediv_nonneg hmin hd.le, Int.le_sub_one_of_lt (Int.ediv_lt_of_lt_mul hd (by omega))⟩
  | bipolar =>
    rintro ⟨hmin, hmax⟩
    simp only [codeMin, codeMax, hhalf] at hmin hmax ⊢
    refine ⟨Int.le_ediv_of_mul_le hd (by rw [Int.neg_mul]; exact hmin), ?_⟩
    exact Int.le_sub_one_of_lt (Int.ediv_lt_of_lt_mul hd (by omega))

/-! ### What a completion leaves to the arbiter (R58) -/

theorem State.exec_complete {s : State} {w : Work} (hw : s.conv.work = some w) :
    exec .conversionComplete s = .next (s.complete w) := by
  change execConversionComplete s = _
  simp only [execConversionComplete, hw]

/-- The steps of a completion after the slot's finishing: the deferred boundary if start is pending, and the choice
(R31, R58). -/
theorem State.complete_deferred {s u : State} {w : Work}
    (hu : ((s.deliverResult w).releaseWork w).finishSlot w = u) :
    (u.sched.startPending = false → s.complete w = u.choose w.finish) ∧
      (u.sched.startPending = true →
        s.complete w =
          ((u.setSched { u.sched with startPending := false }).boundary w.finish).choose w.finish) := by
  refine ⟨fun h => ?_, fun h => ?_⟩
  · rw [State.complete_eq, hu, State.takeDeferredBoundary_none _ h]
  · rw [State.complete_eq, hu, State.takeDeferredBoundary_pending _ h]

/-- What is left to do at a capture conversion's completion once its value is with the bank (R31, R58). -/
theorem State.exec_complete_capture {s u : State} {w : Work} {tag : Tag} {pos : Nat}
    (hw : s.conv.work = some w) (hk : w.kind = .capture tag pos)
    (hu : (s.receiveCaptureValue pos (s.workCode w) (s.workClip w) w.finish).setConv
      { work := none, planMark := false } = u) :
    exec .conversionComplete s =
      .next
        (if s.sched.startPending = true then
          (State.boundary { u with sched := { s.sched with startPending := false } } w.finish).choose w.finish
        else u.choose w.finish) := by
  have hrelease : (s.deliverResult w).releaseWork w = u := by
    rw [State.deliverResult_capture hk, State.releaseWork, hk]
    exact hu
  have hsched : u.sched = s.sched := by
    rw [← hu, State.receiveCaptureValue_frame]
    rfl
  obtain ⟨hno, hyes⟩ := State.complete_deferred (s := s) (w := w) (State.finishSlot_capture hk)
  rw [hrelease, hsched] at hno hyes
  rw [State.exec_complete hw]
  split
  · rename_i hp
    rw [hyes hp]
    rfl
  · rename_i hp
    rw [hno (by simpa using hp)]

/-! ### Interstitial work (R52) -/

theorem State.takeInterstitial_offer {s : State} {cp : Capture} {pos : Nat} {it : CaptureItem} (t : Nat)
    (h : s.capture.bank.offer = some (cp, pos, it)) :
    s.takeInterstitial t = s.takeCaptureWork cp pos it t := by
  simp only [State.takeInterstitial, h]

theorem State.takeInterstitial_demand {s : State} {d : Demand} (t : Nat) (h : s.capture.bank.offer = none)
    (hd : s.demandOffer = some d) : s.takeInterstitial t = s.takeDemand d t := by
  simp only [State.takeInterstitial, h, hd]

theorem State.takeInterstitial_none {s : State} (t : Nat) (h : s.capture.bank.offer = none)
    (hd : s.demandOffer = none) : s.takeInterstitial t = s := by
  simp only [State.takeInterstitial, h, hd]

/-- The Demand Queue offers its first entry whose channel is not held (R71). -/
theorem State.demandOffer_first {s : State} {before after : List Demand} {d : Demand}
    (hl : s.demand.entries = before ++ d :: after) (hb : ∀ x ∈ before, s.isHeld x.channel = true)
    (hd : s.isHeld d.channel = false) : s.demandOffer = some d := by
  rw [State.demandOffer, hl, List.find?_append, List.find?_eq_none.mpr fun x hx => by simp [hb x hx]]
  simp [hd]

theorem State.demandOffer_none {s : State} (h : ∀ d ∈ s.demand.entries, s.isHeld d.channel = true) :
    s.demandOffer = none :=
  List.find?_eq_none.mpr fun d hd => by simp [h d hd]

theorem State.demandOffer_not_held {s : State} {d : Demand} (h : s.demandOffer = some d) :
    s.isHeld d.channel = false := by
  simpa using List.find?_some h

/-- Taking the first demand that is not held removes that entry: no earlier one is equal to it. -/
theorem erase_append_cons {α : Type} [DecidableEq α] {before after : List α} {d : α} (h : d ∉ before) :
    (before ++ d :: after).erase d = before ++ after := by
  rw [List.erase_append_right _ h, List.erase_cons_head]

/-- The first slot not taken, behind a run of slots that are taken (R87). -/
theorem firstUntaken_after {items : List CaptureItem} {before after : List ValueSlot} {v : ValueSlot}
    {it : CaptureItem} (k : Nat) (hit : items[before.length]? = some it)
    (hb : ∀ x ∈ before, x.start ≠ none) (hv : v.start = none) :
    firstUntaken k items (before ++ v :: after) = some (k + before.length, it) := by
  induction before generalizing k items with
  | nil =>
    cases items with
    | nil => cases hit
    | cons a items =>
      obtain rfl : a = it := by simpa using hit
      simp [firstUntaken, hv]
  | cons b before ih =>
    cases items with
    | nil => cases hit
    | cons a items =>
      have hbn : b.start.isNone = false := by
        simpa [Option.isSome_iff_ne_none] using hb b (by simp)
      have hrest := ih (k := k + 1) (items := items) (by simpa using hit)
        fun x hx => hb x (List.mem_cons_of_mem b hx)
      simp only [List.cons_append, firstUntaken, hbn, Bool.false_eq_true, if_false, hrest, List.length_cons]
      congr 2
      omega

theorem modify_append_cons {α : Type} (f : α → α) (before after : List α) (v : α) :
    (before ++ v :: after).modify before.length f = before ++ f v :: after := by
  induction before with
  | nil => rfl
  | cons b before ih => simp [ih]

theorem firstUntaken_none {items : List CaptureItem} {values : List ValueSlot} (k : Nat)
    (h : ∀ v ∈ values, v.start ≠ none) : firstUntaken k items values = none := by
  by_contra hne
  obtain ⟨⟨pos, it⟩, hsome⟩ := Option.ne_none_iff_exists'.mp hne
  obtain ⟨i, v, -, -, hv, hstart⟩ := firstUntaken_some hsome
  exact h v (List.mem_of_getElem? hv) hstart

/-! ### What is held and what is eligible -/

theorem State.isHeld_iff {s : State} {c : Channel} :
    s.isHeld c = true ↔
      ∃ cp cancelled sampled values, s.capture.bank = .holding cp cancelled sampled values ∧
        ∃ it ∈ cp.items, it.channel = c := by
  rw [State.isHeld, List.contains_iff_mem]
  cases s.capture.bank with
  | free => simp [Bank.heldChannels]
  | armed cp timer => simp [Bank.heldChannels]
  | holding cp cancelled sampled values => simp [Bank.heldChannels, Capture.channels]

theorem State.interstitialEligible_iff {s : State} :
    s.interstitialEligible = true ↔
      s.capture.bank.offer ≠ none ∨ ∃ d ∈ s.demand.entries, s.isHeld d.channel = false := by
  rw [State.interstitialEligible, Bool.or_eq_true, Option.isSome_iff_ne_none, State.demandOffer,
    List.find?_isSome]
  simp

theorem State.interstitialEligible_congr {s u : State} (hc : u.capture = s.capture) (hd : u.demand = s.demand) :
    u.interstitialEligible = s.interstitialEligible := by
  have hheld : ∀ c, u.isHeld c = s.isHeld c := fun c => by rw [State.isHeld, State.isHeld, hc]
  simp only [State.interstitialEligible, State.demandOffer, hc, hd, hheld]

/-! ### A choice in a round -/

/-- The claims after a skip: gap counts raised under the channel's ACTIVE due claims (R54). -/
theorem State.skipSlot_claims (s : State) (sl : PlanSlot) (p : Port) (c : Channel) :
    (s.claims.mapCells (skipCell sl.channel s.roundNow)).get p c =
      (s.claimOf p c).map fun cl =>
        if c = sl.channel ∧ cl.state = .active ∧ cl.due c s.roundNow = true then
          { cl with gap := min (cl.gap + 1) 15 }
        else cl := by
  rw [ClaimTable.get_mapCells, skipCell, State.claimOf]
  congr 1
  funext cl
  simp only [Claim.receives_iff, Claim.raiseGap]

theorem State.skipSlot_eq (s : State) (sl : PlanSlot) :
    s.skipSlot sl =
      { s with
        claims := s.claims.mapCells (skipCell sl.channel s.roundNow)
        sched := { s.sched with slotPosition := s.sched.slotPosition + 1 } } := by
  unfold State.skipSlot
  generalize s.claims.mapCells _ = x
  rfl

theorem State.skipSlot_frame (s : State) (sl : PlanSlot) :
    (s.skipSlot sl).conv = s.conv ∧ (s.skipSlot sl).table = s.table ∧ (s.skipSlot sl).capture = s.capture ∧
      (s.skipSlot sl).demand = s.demand ∧ (s.skipSlot sl).sched.inRound = s.sched.inRound := by
  unfold State.skipSlot
  generalize s.claims.mapCells _ = x
  exact ⟨rfl, rfl, rfl, rfl, rfl⟩

/-- A skipped slot leaves the arbiter to choose again, there or after the round's end (R51, R54). -/
theorem State.choose_skip {s : State} {sl : PlanSlot} {rest : List PlanSlot} (t : Nat)
    (hr : s.sched.inRound = true) (hi : s.conv.planMark = false ∨ s.interstitialEligible = false)
    (hl : s.sched.remainingSlots = sl :: rest) (hh : s.isHeld sl.channel = true) :
    (rest ≠ [] → s.choose t = (s.skipSlot sl).choose t) ∧
      (rest = [] → s.choose t = ((s.skipSlot sl).lastSlotFinished t).choose t) := by
  have hturn : s.choose t = (s.skipSlot sl).planTurn t := by
    rw [State.choose_plan t hr hi]
    exact State.slotTurn_skip t _ hl hh
  obtain ⟨hconv, -, hcapture, hdemand, hround⟩ := s.skipSlot_frame sl
  have hi' : (s.skipSlot sl).conv.planMark = false ∨ (s.skipSlot sl).interstitialEligible = false := by
    rwa [hconv, State.interstitialEligible_congr hcapture hdemand]
  refine ⟨fun _ => by rw [hturn, State.choose_plan t (hround.trans hr) hi'], fun hrest => ?_⟩
  have hr' : (s.skipSlot sl).sched.remainingSlots = [] := by
    have hdrop : s.sched.slots.drop s.sched.slotPosition = sl :: rest := hl
    simp only [Scheduler.remainingSlots, State.skipSlot, State.setSched_sched]
    rw [← List.drop_drop, hdrop, hrest]
    rfl
  rw [hturn, State.planTurn, State.slotTurn_end t _ hr']
  refine State.planTurn_next t (State.lastSlotFinished_not_late _ t) ?_
  rw [State.lastSlotFinished_conv,
    State.interstitialEligible_congr (State.lastSlotFinished_capture _ t) (State.lastSlotFinished_demand _ t)]
  exact hi'

/-! ### What a choice starts -/

/-- What the Converter has taken that is no capture conversion is of a channel that is not held (R54, R71). -/
def State.TakesFree (u : State) : Prop :=
  ∀ w, u.conv.work = some w → (∀ tag pos, w.kind ≠ .capture tag pos) → u.isHeld w.channel = false

theorem State.TakesFree.of_idle {u : State} (h : u.conv.work = none) : u.TakesFree := fun w hw => by
  rw [h] at hw
  cases hw

theorem State.choose_takesFree {s : State} (t : Nat) (hw : s.conv.work = none) : (s.choose t).TakesFree := by
  refine s.choose_keeps t (P := State.TakesFree) ?_ ?_ ?_ ?_ ?_ (.of_idle hw)
  · exact fun u sl _ hc _ => .of_idle (by rw [(u.skipSlot_frame sl).1, hc, hw])
  · exact fun u _ hc => .of_idle (by rw [State.lastSlotFinished_conv, hc, hw])
  · intro u sl _ _ _ _ hh w hwork _
    obtain rfl := Option.some.inj hwork
    exact hh
  · intro u cp pos it _ _ _ w hwork hk
    obtain rfl := Option.some.inj hwork
    exact absurd rfl (hk cp.tag pos)
  · intro u d _ _ hd w hwork _
    obtain rfl := Option.some.inj hwork
    have hfree := State.demandOffer_not_held hd
    exact hfree

theorem State.chooseIfIdle_takesFree {s : State} (t : Nat) (hw : s.conv.work = none) :
    (s.chooseIfIdle t).TakesFree := by
  rw [State.chooseIfIdle_idle t hw]
  exact State.choose_takesFree t hw

/-- With the plan mark no, a choice that leaves a round takes one of its slots (R51, R53). -/
theorem State.choose_in_round {s : State} {t : Nat} {w : Work} (hm : s.conv.planMark = false)
    (hr : (s.choose t).sched.inRound = true) (hw : (s.choose t).conv.work = some w) :
    ∃ k, w.kind = .plan k := by
  have taken : ∀ (u : State) sl, (u.takeSlot sl t).conv.work = some w → ∃ k, w.kind = .plan k :=
    fun u sl h => by
      obtain rfl := Option.some.inj h
      exact ⟨sl.index, rfl⟩
  have outside : ∀ u : State, u.sched.inRound = false → (u.chooseOutside t).sched.inRound ≠ true :=
    fun u hu => by
      rw [State.chooseOutside, State.takeInterstitial_frame]
      simp [hu]
  by_cases hin : s.sched.inRound = true
  · rw [State.choose_plan t hin (.inl hm), State.planTurn] at hr hw
    rcases State.slotTurn_cases s t _ with ⟨sl, -, h⟩ | ⟨-, h⟩ <;> rw [h] at hr hw
    · exact taken _ sl hw
    · have hlate := (s.skipRun s.sched.remainingSlots).1.lastSlotFinished_not_late t
      generalize (s.skipRun s.sched.remainingSlots).1.lastSlotFinished t = u at hr hw hlate
      by_cases hu : u.sched.inRound = true
      · rw [if_pos hu] at hr hw
        rcases State.slotTurn_cases u t _ with ⟨sl, -, h'⟩ | ⟨-, h'⟩ <;> rw [h'] at hr hw
        · exact taken _ sl hw
        · refine absurd hr (outside _ ?_)
          have hrun : (u.skipRun u.sched.remainingSlots).1.sched.state = .running := by
            rw [State.skipRun_state]
            exact (Scheduler.inRound_iff.mp hu).resolve_right hlate
          rw [State.lastSlotFinished_running t hrun]
          rfl
      · rw [if_neg hu] at hr
        exact absurd hr (outside u (by simpa using hu))
  · rw [State.choose_outside t (by simpa using hin)] at hr
    exact absurd hr (outside s (by simpa using hin))

theorem State.teardown_takesFree {s : State} (p : Port) (t : Nat) (hw : s.conv.work = none) :
    (s.teardown p t).TakesFree := by
  refine State.chooseIfIdle_takesFree t ?_
  rw [State.teardownCapture_frame, State.setCapture_conv]
  exact Option.map_eq_none_iff.mpr hw

/-- From an IDLE Converter no command starts a plan slot or a demand of a held channel (R54, R71). -/
theorem CoreStep.takesFree {c : Instr} {s v : State} (h : CoreStep c s v) (hw : s.conv.work = none) :
    v.TakesFree := by
  cases h
  case complete w hc hwork => cases hw.symm.trans hwork
  case closed t p hc => exact State.teardown_takesFree p t hw
  case linkResetOpen t p hc ho => exact State.teardown_takesFree p t hw
  case expired p t hc ho => exact State.teardown_takesFree p t hw
  case claim t p rq hc ho hj =>
    unfold State.takeClaim
    dsimp only
    split
    · refine State.chooseIfIdle_takesFree t ?_
      by_cases hs : s.sched.state = .stopped
      · unfold State.tableTurnsNonEmpty
        rw [State.setClaims_sched, hs]
        dsimp only
        split
        · exact hw
        · split
          · rw [State.boundary_conv]
            exact hw
          · exact hw
      · rw [State.tableTurnsNonEmpty_other (by exact hs)]
        exact hw
    · exact .of_idle hw
  case readNow t p rq hc ho hj => exact State.chooseIfIdle_takesFree t hw
  case capture t p rq hc ho hl hj =>
    refine State.chooseIfIdle_takesFree t ?_
    rw [State.takeHead_frame]
    exact hw
  case cancel t p tag hc hh =>
    refine State.chooseIfIdle_takesFree t ?_
    rw [State.cancel_frame]
    exact hw
  case tick t hc ht =>
    unfold State.tick
    split
    · exact .of_idle hw
    · exact .of_idle hw
    · refine State.chooseIfIdle_takesFree t ?_
      rw [State.boundary_conv]
      exact hw
    · exact .of_idle hw
  case edge t l e hc =>
    unfold State.takeEdge
    split
    · exact .of_idle hw
    · split
      · exact State.chooseIfIdle_takesFree t hw
      · exact .of_idle hw
    · split
      · unfold State.countExtraEdge
        exact .of_idle hw
      · exact .of_idle hw
  case timeout cp t hc hb =>
    refine State.chooseIfIdle_takesFree t ?_
    rw [State.freeBank_frame]
    exact hw
  case powerOn => exact .of_idle rfl
  case rstn => exact .of_idle rfl
  all_goals exact .of_idle hw

/-- A completion's choice finds the Converter released, with the plan mark of what completed (R53, R58). -/
theorem State.complete_choose (s : State) (w : Work) :
    ∃ u : State, s.complete w = u.choose w.finish ∧ u.conv = { work := none, planMark := w.kind.mark } := by
  refine ⟨_, State.complete_eq s w, ?_⟩
  rw [State.takeDeferredBoundary_frame, State.finishSlot_frame]
  rfl

/-! ### Table entries (R97, R98) -/

/-- Entries of another table with no more than the STALE mark changed. -/
def MarkedStale (old new : PerChannel TableEntry) : Prop :=
  ∀ c, new.get c = old.get c ∨ new.get c = { old.get c with stale := true }

namespace MarkedStale

variable {a b c : PerChannel TableEntry}

theorem refl (a : PerChannel TableEntry) : MarkedStale a a := fun _ => .inl rfl

theorem trans (h : MarkedStale a b) (h' : MarkedStale b c) : MarkedStale a c := fun ch => by
  rcases h ch with hb | hb <;> rcases h' ch with hc | hc <;> rw [hc, hb]
  · exact .inl rfl
  · exact .inr rfl
  · exact .inr rfl
  · exact .inr rfl

theorem valid (h : MarkedStale a b) {ch : Channel} (hv : (a.get ch).valid = true) :
    (b.get ch).valid = true := by
  rcases h ch with hb | hb <;> rw [hb] <;> exact hv

theorem boundary (s : State) (t : Nat) : MarkedStale s.table (s.boundary t).table := fun ch => by
  rw [State.boundary_table]
  split
  · exact .inr rfl
  · exact .inl rfl

theorem lastSlotFinished (s : State) (t : Nat) : MarkedStale s.table (s.lastSlotFinished t).table := by
  cases hs : s.sched.state with
  | late =>
    have hslipped := MarkedStale.boundary s.slipped t
    rw [State.lastSlotFinished_late t hs]
    rw [State.slipped_frame] at hslipped ⊢
    exact hslipped
  | running => rw [State.lastSlotFinished_running t hs]; exact .refl _
  | stopped => simp only [State.lastSlotFinished, hs]; exact .refl _
  | done => simp only [State.lastSlotFinished, hs]; exact .refl _

theorem choose (s : State) (t : Nat) : MarkedStale s.table (s.choose t).table :=
  s.choose_keeps t (P := fun u => MarkedStale s.table u.table)
    (fun u sl h _ _ => by rw [(u.skipSlot_frame sl).2.1]; exact h)
    (fun u h _ => h.trans (.lastSlotFinished u t)) (fun _ _ h _ _ _ _ => h) (fun _ _ _ _ h _ _ => h)
    (fun _ _ h _ _ => h) (.refl _)

theorem chooseIfIdle (s : State) (t : Nat) : MarkedStale s.table (s.chooseIfIdle t).table := by
  unfold State.chooseIfIdle
  split
  · exact .choose s t
  · exact .refl _

/-- A choice after what leaves the table alone. -/
theorem chooseIfIdle_of {s u : State} (h : u.table = s.table) (t : Nat) :
    MarkedStale s.table (u.chooseIfIdle t).table :=
  h ▸ MarkedStale.chooseIfIdle u t

theorem tableTurnsNonEmpty (s : State) (t : Nat) : MarkedStale s.table (s.tableTurnsNonEmpty t).table := by
  unfold State.tableTurnsNonEmpty
  split
  · split
    · exact .refl _
    · split
      · exact .boundary s t
      · exact .refl _
  all_goals exact .refl _

theorem teardown (s : State) (p : Port) (t : Nat) : MarkedStale s.table (s.teardown p t).table :=
  .chooseIfIdle_of (by rw [State.teardownCapture_frame]; rfl) t

/-- What follows a delivery at a completion marks entries alone. -/
theorem complete (s : State) (w : Work) : MarkedStale (s.deliverResult w).table (s.complete w).table := by
  have hfinish : MarkedStale (s.deliverResult w).table (((s.deliverResult w).releaseWork w).finishSlot w).table := by
    unfold State.finishSlot
    split
    · split
      · exact .lastSlotFinished ((s.deliverResult w).releaseWork w) _
      · exact .refl _
    · exact .refl _
    · exact .refl _
  rw [State.complete_eq]
  refine (hfinish.trans ?_).trans (.choose _ _)
  cases hp : (((s.deliverResult w).releaseWork w).finishSlot w).sched.startPending with
  | false => rw [State.takeDeferredBoundary_none _ hp]; exact .refl _
  | true => rw [State.takeDeferredBoundary_pending _ hp]; exact .boundary (State.setSched _ _) _

end MarkedStale

/-- A delivery writes VALID entries alone (R62, R72). -/
theorem State.deliverResult_valid {s : State} (w : Work) {c : Channel} (h : (s.table.get c).valid = true) :
    ((s.deliverResult w).table.get c).valid = true := by
  have written : ∀ src,
      ((s.table.set w.channel (completedEntry (s.workCode w) (s.workClip w) w.resolution s.roundNow src)).get
        c).valid = true := fun src => by
    rw [PerChannel.get_set]
    split
    · rfl
    · exact h
  cases hk : w.kind with
  | plan slot => rw [State.deliverResult_plan hk, State.deliverPlan_frame]; exact written .plan
  | demand tag p gone => rw [State.deliverResult_demand hk, State.deliverDemand_frame]; exact written .demand
  | capture tag pos => rw [State.deliverResult_capture hk, State.receiveCaptureValue_frame]; exact h

/-- No command but a reset and a completion changes more of an entry than its STALE mark (R98). -/
theorem CoreStep.table {c : Instr} {s v : State} (h : CoreStep c s v) (hp : c ≠ .powerOn) (hr : c ≠ .rstn)
    (hc : c ≠ .conversionComplete) : MarkedStale s.table v.table := by
  cases h
  case powerOn h => exact absurd h hp
  case rstn h => exact absurd h hr
  case complete w h hw => exact absurd h hc
  case closed t p h => exact .teardown s p t
  case linkResetOpen t p h ho => exact .teardown s p t
  case expired p t h ho => exact .teardown s p t
  case claim t p rq h ho hj =>
    unfold State.takeClaim
    dsimp only
    split
    · exact (MarkedStale.tableTurnsNonEmpty (s.setClaims (s.claims.candidate p rq)) t).trans (.chooseIfIdle _ t)
    · exact .refl _
  case readNow t p rq h ho hj => exact .chooseIfIdle (s.queueDemand _) t
  case capture t p rq h ho hl hj => exact .chooseIfIdle_of (by rw [State.takeHead_frame]; rfl) t
  case cancel t p tag h hh => exact .chooseIfIdle_of (by rw [State.cancel_frame]; rfl) t
  case tick t h ht =>
    unfold State.tick
    split
    · exact .refl _
    · exact .refl _
    · exact (MarkedStale.boundary s t).trans (.chooseIfIdle _ t)
    · exact .refl _
  case edge t l e h =>
    unfold State.takeEdge
    split
    · exact .refl _
    · split
      · exact .chooseIfIdle (s.sample _ t) t
      · exact .refl _
    · split <;> exact .refl _
  case timeout cp t h hb => exact .chooseIfIdle_of (by rw [State.freeBank_frame]; rfl) t
  all_goals exact .refl _

end Sys2Proof.Machine
end

section
/-! The statements of the Converter. -/

-- In sequence, as the sections above.
set_option Elab.async false

namespace Sys2Proof

open Machine

/-- Settles O24: the input by the kind of work, and the code by where the ideal code lies. -/
theorem codeOfAVoltage : Obligations.CodeOfAVoltage := by
  refine ⟨fun s w => ⟨fun hk => ?_, fun tag pos cp cancelled sampled values v hk hb hv => ?_⟩,
    fun s c r t => ⟨fun hr => ?_, fun hr => ?_, fun ha => ?_⟩,
    fun r res v => ⟨codeOf_inCodeSpace r res v, fun h => ?_, fun h => ?_⟩⟩
  · have hin : s.inputOf w = s.measure w.channel w.range w.start := by
      rcases hk with ⟨n, hk⟩ | ⟨tag, p, gone, hk⟩ <;> simp only [State.inputOf, hk]
    rw [State.workCode, State.workClip, hin]
    refine ⟨fun hr => ?_, fun hr => ?_⟩
    · cases h : w.range with
      | bipolar => exact absurd h hr
      | low | full => exact ⟨rfl, rfl⟩
    · rw [hr]
      exact ⟨rfl, rfl⟩
  · have hin : s.inputOf w = v.stage := by simp only [State.inputOf, hk, hb, Bank.stageVoltage, hv]
    rw [State.workCode, State.workClip, hin]
    exact ⟨rfl, rfl⟩
  · cases r with
    | bipolar => exact absurd rfl hr
    | low | full => rfl
  · rw [hr]
    rfl
  · rw [State.ain, State.amid, ha]
    exact ⟨rfl, rfl⟩
  · rw [clipOf_eq_false h, idealCode, ← spanOf_eq]
    exact ⟨Int.ediv_mul_le _ (spanOf_pos r).ne', Int.lt_ediv_add_one_mul_self _ (spanOf_pos r)⟩
  · rw [← spanOf_eq]
    refine (clipOf_eq_true h).imp (fun ⟨hc, hlt⟩ => ⟨hc, ?_⟩) fun ⟨hc, hlt⟩ => ⟨hc, ?_⟩
    · exact (Int.le_ediv_iff_mul_le (spanOf_pos r)).mp hlt
    · exact (Int.ediv_lt_iff_lt_mul (spanOf_pos r)).mp hlt

/-- Settles O25: the reduction is a division rounded down, and both ends of the code space divide. -/
theorem reductionDropsLowBits : Obligations.ReductionDropsLowBits := by
  intro hi lo x h
  have hd : (0 : Int) < 2 ^ (resolutionBits hi - resolutionBits lo) := by positivity
  refine ⟨Int.ediv_mul_le x hd.ne', Int.lt_ediv_add_one_mul_self x hd, fun he => ?_, fun r =>
    reduceCode_inCodeSpace h⟩
  rw [he, reduceCode, Nat.sub_self, pow_zero, Int.ediv_one]

/-- Settles O26, from what a delivery does to each session (R63, R64). -/
theorem planCompletionDelivers : Obligations.PlanCompletionDelivers := by
  intro s w slot hw hk hp hlast
  obtain ⟨hresults, hevents, hclaims⟩ := s.deliverPlan_spec w slot
  have hframe := s.deliverPlan_frame w slot (s.workCode w) (s.workClip w)
  have hdeliver := State.deliverResult_plan (s := s) hk
  have hdeferred := fun u => State.complete_deferred (s := s) (u := u) (w := w)
  have hexec := State.exec_complete hw
  rw [hdeliver] at hdeferred
  generalize s.deliverPlan w slot (s.workCode w) (s.workClip w) = d at *
  have hsched : d.sched = s.sched := by rw [hframe]
  have hfinish : (d.releaseWork w).finishSlot w =
      (d.setConv { work := none, planMark := true }).setSched
        (if slot + 1 = s.sched.slots.length then { s.sched with state := .done } else s.sched) := by
    rw [State.releaseWork, hk]
    split
    · rename_i h
      rw [State.finishSlot_last hk (by rw [State.setConv_sched, hsched]; exact h),
        State.lastSlotFinished_running _ (by rw [State.setConv_sched, hsched]; exact hlast h), ← hsched]
      rfl
    · rename_i h
      rw [State.finishSlot_not_last hk (by rw [State.setConv_sched, hsched]; exact h), ← hsched]
      rfl
  refine ⟨_, hexec.trans (congrArg _ ((hdeferred _ hfinish).1 ?_)), rfl, by rw [hframe]; rfl, rfl, hresults, hevents,
    fun p cl hr => ?_, fun p c hc => ?_, by rw [hframe]; rfl, by rw [hframe]; rfl, by rw [hframe]; rfl,
    by rw [hframe]; rfl, by rw [hframe]; rfl⟩
  · rw [State.setSched_sched]
    split <;> exact hp
  · refine (hclaims p w.channel).trans ?_
    rw [if_pos rfl, hr]
  · refine (hclaims p c).trans ?_
    rcases hc with hc | hr
    · rw [if_neg hc]
    · rw [hr]
      exact ite_self _

/-- Settles O27, by whether start is pending. -/
theorem demandCompletion : Obligations.DemandCompletion := by
  refine ⟨fun s => ⟨fun r h => by rw [State.roundNow, h]; rfl, fun h => by rw [State.roundNow, h]; rfl⟩,
    fun s w tag p gone hw hk => ?_⟩
  have hdeliver : (s.deliverResult w).releaseWork w =
      { s with
        table := s.table.set w.channel
          ⟨true, s.workCode w, w.resolution, s.roundNow, .demand, false, s.workClip w⟩
        results :=
          if gone then s.results
          else s.results.set p ((s.resultsOf p).handRecord
            (.demand tag w.channel (s.workCode w) w.resolution s.roundNow (s.workClip w)))
        conv := { work := none, planMark := false } } := by
    rw [State.deliverResult_demand hk, State.releaseWork, hk, State.deliverDemand]
    cases gone <;> rfl
  refine ⟨_, rfl, fun hp => ?_, fun hp => ?_⟩
  · rw [State.exec_complete hw, (State.complete_deferred (State.finishSlot_demand hk)).1 (by rw [hdeliver]; exact hp),
      hdeliver]
  · rw [State.exec_complete hw, (State.complete_deferred (State.finishSlot_demand hk)).2 (by rw [hdeliver]; exact hp),
      hdeliver]
    rfl

/-- Settles O28, by whether the capture is cancelled and whether this value is its last. -/
theorem captureConversionCompletes : Obligations.CaptureConversionCompletes := by
  refine ⟨fun it v code clip h => by rw [captureValue, h]; rfl,
    fun s w tag pos cp cancelled sampled values hw hk hb => ?_⟩
  dsimp only
  have release := fun u => State.exec_complete_capture (u := u) hw hk
  simp only [State.receiveCaptureValue, hb] at release
  refine ⟨fun hc => ?_, fun hc hv => ?_, fun hc hv => ?_⟩ <;> subst hc
  · simp only [if_true, State.freeBank, ← State.takeHead_setConv] at release
    exact release _ rfl
  · have hall : ((values.modify pos fun v => v.finish (s.workCode w) (s.workClip w)).all
        fun v => v.result.isSome) = false := by
      obtain ⟨v, hmem, hnone⟩ := hv
      exact List.all_eq_false.mpr ⟨v, hmem, by simp [hnone]⟩
    simp only [Bool.false_eq_true, if_false, hall] at release
    exact release _ rfl
  · have hall : ((values.modify pos fun v => v.finish (s.workCode w) (s.workClip w)).all
        fun v => v.result.isSome) = true :=
      List.all_eq_true.mpr fun v hmem => Option.isSome_iff_ne_none.mpr (hv v hmem)
    simp only [Bool.false_eq_true, if_false, hall, if_true, State.completeCapture, State.freeBank,
      ← State.takeHead_setConv] at release
    exact release _ rfl

/-- Settles O29, from the searches behind the two offers. -/
theorem arbiterOutsideARound : Obligations.ArbiterOutsideARound := by
  intro s t
  refine ⟨State.choose_outside t, fun cp pos it h => State.takeInterstitial_offer t h,
    fun h before d after hl hb hd => ?_, fun h hd => State.takeInterstitial_none t h (State.demandOffer_none hd),
    fun cp sampled before v after it hb hit hbefore hv => ?_,
    fun cp cancelled sampled values hb h => ?_, fun h => ?_⟩
  · have hmem : d ∉ before := fun hmem => by simp [hb d hmem] at hd
    rw [State.takeInterstitial_demand t h (State.demandOffer_first hl hb hd), State.takeDemand, hl,
      erase_append_cons hmem]
    rfl
  · rw [hb]
    refine ⟨?_, ?_⟩
    · simp only [Bank.offer, Bool.false_eq_true, if_false, firstUntaken_after 0 hit hbefore hv, Option.map_some,
        Nat.zero_add]
    · rw [Bank.takeValue, modify_append_cons]
      rfl
  · rw [hb]
    rcases h with rfl | h
    · rfl
    · simp only [Bank.offer, firstUntaken_none 0 h, Option.map_none, ite_self]
  · cases hb : s.capture.bank with
    | free | armed => rfl
    | holding cp cancelled sampled values => exact absurd hb (h cp cancelled sampled values)

/-- Settles O30, by the plan mark, the offered slot and whether it is the round's last. -/
theorem arbiterInsideARound : Obligations.ArbiterInsideARound := by
  refine ⟨fun s t => ⟨State.lastSlotFinished_running t, fun h => ?_⟩,
    fun s t hr => ⟨fun hm hi => ?_, fun hi sl rest hl => ⟨fun hh => ?_, fun hh => ?_⟩⟩⟩
  · refine ⟨s.slipped.events, s.slipped_eventsOf, ?_⟩
    rw [State.lastSlotFinished_late t h]
    exact congrArg (State.boundary · t) s.slipped_frame
  · simp only [State.choose, hr, hm, hi, Bool.and_self, if_true]
  · rw [State.choose_plan t hr hi, State.planTurn, State.slotTurn_take t _ hl hh]
    rfl
  · obtain ⟨hmore, hlast⟩ := State.choose_skip t hr hi hl hh
    rw [State.skipSlot_eq] at hmore hlast
    exact ⟨s.claims.mapCells (skipCell sl.channel s.roundNow), s.skipSlot_claims sl, hmore, hlast⟩

/-- Settles O31: a choice takes what is not held, and with the plan mark no a slot of the round if it leaves one. -/
theorem whatTheConverterStarts : Obligations.WhatTheConverterStarts := by
  refine ⟨fun s t => ⟨fun c => State.isHeld_iff, State.interstitialEligible_iff, Scheduler.inRound_iff,
    State.chooseIfIdle_idle t, State.chooseIfIdle_busy t⟩,
    fun c s u w hc he hw hk => ?_, fun s u w w' hw he hr hw' hk => ?_⟩
  · by_cases hnone : s.conv.work = none
    · obtain ⟨v, x, hv, rfl⟩ := exec_coreDone he
      exact hv.takesFree hnone w hw hk
    · obtain rfl := hc.resolve_left hnone
      obtain ⟨w₀, hw₀⟩ := Option.ne_none_iff_exists'.mp hnone
      obtain ⟨v, hv, hconv⟩ := s.complete_choose w₀
      rw [State.exec_complete hw₀, hv] at he
      obtain rfl := Host.Outcome.next.inj he
      exact State.choose_takesFree _ (by rw [hconv]) w hw hk
  · obtain ⟨v, hv, hconv⟩ := s.complete_choose w
    rw [State.exec_complete hw, hv] at he
    obtain rfl := Host.Outcome.next.inj he
    cases hkind : w.kind with
    | plan k => exact ⟨k, rfl⟩
    | demand tag p gone | capture tag pos =>
      obtain ⟨k, hk'⟩ := State.choose_in_round (by rw [hconv, hkind]; rfl) hr hw'
      exact absurd hk' (hk k)

/-- Settles O41: what follows a completion's delivery, and every other command, marks entries alone. -/
theorem entriesChangeOnlyByCompletions : Obligations.EntriesChangeOnlyByCompletions := by
  intro c s u ch he hp hr
  obtain ⟨v, x, hv, rfl⟩ := exec_coreDone he
  refine ⟨fun hvalid => ?_, fun hc => hv.table hp hr hc ch⟩
  by_cases hc : c = .conversionComplete
  · subst hc
    cases hv
    case idle => exact hvalid
    case complete w hw _ => exact (MarkedStale.complete s w).valid (State.deliverResult_valid w hvalid)
    all_goals contradiction
  · exact (hv.table hp hr hc).valid hvalid

end Sys2Proof
end

section
/-! SUPPORT. How the Demand Queue and the Capture Bank answer and what the bank does with heads, edges and timeouts
(chapters 4 and 5). -/

-- In sequence, as the sections above.
set_option Elab.async false

namespace Sys2Proof.Machine

/-- A request that its owner answers, in terms of the answer. -/
theorem State.serve_answered {α : Type} {s u : State} {p : Port} {f : Frame} {k : Kind}
    {read : List Byte → Option α} {owner : State → α → Answer} {x : α} {st : Status} {payload : List Byte}
    (h : s.Asks p f k) (hr : read f.payload = some x) (ho : owner s x = ⟨u, st, payload⟩)
    (hp : u.ports = s.ports) :
    s.serve p k read owner = { u with ports := s.answered p f st.code payload } := by
  rw [State.serve_asks h hr (by rw [ho]; exact hp), ho]

/-! ### READ_NOW (R68, R69) -/

namespace State

variable {s : State} {p : Port}

theorem profileConflict_iff {c : Channel} {r : Range} : s.profileConflict c r = false ↔ s.TakesRange c r := by
  unfold State.profileConflict State.TakesRange
  cases s.profile c with
  | none => simp
  | some f => simp

theorem profileConflict_of_not {c : Channel} {r : Range} (h : ¬s.TakesRange c r) :
    s.profileConflict c r = true := by
  rw [← profileConflict_iff, Bool.not_eq_false] at h
  exact h

theorem judgeReadNow_conflict {rq : ReadNowRequest} (h : ¬s.TakesRange rq.channel rq.range) :
    s.judgeReadNow p rq = some .conflict := by
  simp only [State.judgeReadNow, profileConflict_of_not h, if_true]

theorem judgeReadNow_full {rq : ReadNowRequest} (h : s.TakesRange rq.channel rq.range)
    (hf : maxDemandsOfSession ≤ s.demand.countOf p ∨ maxDemands ≤ s.demand.entries.length) :
    s.judgeReadNow p rq = some .queueFull := by
  simp only [State.judgeReadNow, profileConflict_iff.mpr h, Bool.false_eq_true, if_false]
  by_cases hc : maxDemandsOfSession ≤ s.demand.countOf p
  · rw [if_pos hc]
  · rw [if_neg hc, if_pos (hf.resolve_left hc)]

theorem judgeReadNow_admits {rq : ReadNowRequest} (h : s.TakesRange rq.channel rq.range)
    (hc : s.demand.countOf p < maxDemandsOfSession) (hl : s.demand.entries.length < maxDemands) :
    s.judgeReadNow p rq = none := by
  simp only [State.judgeReadNow, profileConflict_iff.mpr h, Bool.false_eq_true, if_false]
  rw [if_neg (Nat.not_le.mpr hc), if_neg (Nat.not_le.mpr hl)]

/-! ### CAPTURE and CANCEL_CAPTURE (R78, R79, R91) -/

theorem judgeCapture_conflict {rq : CaptureRequest} (h : ∃ it ∈ rq.items, ¬s.TakesRange it.channel it.range) :
    s.judgeCapture p rq = some .conflict := by
  obtain ⟨it, hmem, hit⟩ := h
  have hany : (rq.items.any fun it => s.profileConflict it.channel it.range) = true :=
    List.any_eq_true.mpr ⟨it, hmem, profileConflict_of_not hit⟩
  simp only [State.judgeCapture, hany, if_true]

theorem no_profileConflict {rq : CaptureRequest} (h : ∀ it ∈ rq.items, s.TakesRange it.channel it.range) :
    (rq.items.any fun it => s.profileConflict it.channel it.range) = false :=
  List.any_eq_false.mpr fun it hmem => by simp [profileConflict_iff.mpr (h it hmem)]

theorem judgeCapture_pending {rq : CaptureRequest} (h : ∀ it ∈ rq.items, s.TakesRange it.channel it.range)
    (hp : ∃ cp ∈ s.capture.list, cp.session = p) : s.judgeCapture p rq = some .capturePending := by
  have hsome : (s.capture.captureOf p).isSome = true := by
    rw [CaptureBank.captureOf, List.find?_isSome]
    simpa using hp
  simp only [State.judgeCapture, no_profileConflict h, hsome, Bool.false_eq_true, if_false, if_true]

theorem judgeCapture_admits {rq : CaptureRequest} (h : ∀ it ∈ rq.items, s.TakesRange it.channel it.range)
    (hp : ∀ cp ∈ s.capture.list, cp.session ≠ p) : s.judgeCapture p rq = none := by
  have hnone : s.capture.captureOf p = none := by
    rw [CaptureBank.captureOf, List.find?_eq_none]
    simpa using hp
  simp only [State.judgeCapture, no_profileConflict h, hnone, Option.isSome_none, Bool.false_eq_true, if_false]

theorem captureInFlight_iff {tag : Tag} :
    s.captureInFlight tag = true ↔ ∃ w pos, s.conv.work = some w ∧ w.kind = .capture tag pos := by
  unfold State.captureInFlight
  cases s.conv.work with
  | none => simp
  | some w => cases hk : w.kind <;> simp [hk]

end State

theorem CaptureBank.holds_iff {b : CaptureBank} {p : Port} {tag : Tag} :
    b.holds p tag = true ↔ ∃ cp ∈ b.list, cp.session = p ∧ cp.tag = tag := by
  simp [CaptureBank.holds]

/-- A CANCEL_CAPTURE of a listed capture cancels it and lets an IDLE Converter choose (R91, log entry 12). -/
theorem State.exec_cancel {s : State} {p : Port} {f : Frame} {tag : Tag} {t : Nat}
    (ha : s.Asks p f .cancelCapture) (hf : f.payload = [tag])
    (h : ∃ cp ∈ s.capture.list, cp.session = p ∧ cp.tag = tag) :
    exec (.cancelCapture t p) s =
      .next { (s.cancel p t).chooseIfIdle t with ports := s.answered p f 0 [] } := by
  have ho : ownCancelCapture t p s tag = ⟨(s.cancel p t).chooseIfIdle t, .ok, []⟩ := by
    simp only [ownCancelCapture, CaptureBank.holds_iff.mpr h, if_true]
  refine congrArg Host.Outcome.next (State.serve_answered ha (by rw [hf]; rfl) ho ?_)
  rw [State.chooseIfIdle_ports, State.cancel_frame]
  rfl

/-! ### Where a cancelled capture stands (R91) -/

section cancel

variable {s : State} {p : Port} {cp : Capture} (t : Nat)

theorem State.cancel_armed {timer : Nat} (hb : s.capture.bank = .armed cp timer) (hp : cp.session = p) :
    s.cancel p t = (s.setCapture (s.capture.without p)).freeBank t := by
  simp only [State.cancel, hb, hp, if_true]

theorem State.cancel_holding {sampled : Nat} {values : List ValueSlot}
    (hb : s.capture.bank = .holding cp false sampled values) (hp : cp.session = p)
    (hf : s.captureInFlight cp.tag = false) :
    s.cancel p t = (s.setCapture (s.capture.without p)).freeBank t := by
  simp only [State.cancel, hb, hp, hf, if_true, Bool.false_eq_true, if_false]

theorem State.cancel_inFlight {sampled : Nat} {values : List ValueSlot}
    (hb : s.capture.bank = .holding cp false sampled values) (hp : cp.session = p)
    (hf : s.captureInFlight cp.tag = true) :
    s.cancel p t =
      s.setCapture
        { s.capture.without p with bank := .holding cp true sampled (values.map ValueSlot.drop) } := by
  simp only [State.cancel, hb, hp, hf, if_true, Bool.false_eq_true, if_false]
  rfl

/-- A capture of a session that is not the bank's is taken out of the list, and nothing more. -/
theorem State.cancel_waiting
    (h : s.capture.bank = .free ∨ (∃ cp timer, s.capture.bank = .armed cp timer ∧ cp.session ≠ p) ∨
      ∃ cp cancelled sampled values, s.capture.bank = .holding cp cancelled sampled values ∧
        (cancelled = true ∨ cp.session ≠ p)) :
    s.cancel p t = s.setCapture (s.capture.without p) := by
  rcases h with hb | ⟨cp, timer, hb, hp⟩ | ⟨cp, cancelled, sampled, values, hb, hc⟩
  · simp only [State.cancel, hb]
  · simp only [State.cancel, hb, hp, if_false]
  · rcases hc with rfl | hp
    · simp only [State.cancel, hb, if_true]
    · simp only [State.cancel, hb, hp, if_false, ite_self]

end cancel

/-! ### Edges (R83) -/

theorem edgeMatches_iff {tr : Trigger} {l : TriggerLine} {e : Edge} :
    edgeMatches tr l e = true ↔ tr = .line l e := by
  cases tr <;> simp [edgeMatches]

/-- A capture sampled: every stage keeps the voltage of the instant, and no slot is taken (R82). -/
theorem State.sample_eq (s : State) (cp : Capture) (t : Nat) :
    s.sample cp t =
      { s with
        capture :=
          { s.capture with
            bank :=
              .holding cp false t
                (cp.items.map fun it => ⟨s.measure it.channel it.range t, none, false, none⟩) } } :=
  rfl

end Sys2Proof.Machine
end

section
/-! The statements of the demands and the captures. -/

-- In sequence, as the sections above.
set_option Elab.async false

namespace Sys2Proof

open Machine

/-- Settles O33, check by check; the fresh tag is the first that no outstanding demand carries. -/
theorem readNowByCase : Obligations.ReadNowByCase := by
  intro s t p f rq ha hr
  have refused : ∀ st, s.judgeReadNow p rq = some st →
      exec (.readNow t p) s = .next { s with ports := s.answered p f st.code [] } := fun st hj =>
    congrArg Host.Outcome.next (State.serve_refused ha hr (by simp only [ownReadNow, hj]))
  refine ⟨fun h => refused .conflict (State.judgeReadNow_conflict h),
    fun h hf => refused .queueFull (State.judgeReadNow_full h hf), fun h h2 h6 => ?_⟩
  obtain ⟨n, -, htag, hbefore, -⟩ := freshTag_spec s.outstandingTags s.outstandingTags.length s.demand.nextTag
  have hfresh : s.freshDemandTag ∉ s.outstandingTags :=
    freshTag_not_mem (by have := s.outstandingTags_length; omega) _
  have htag' : s.freshDemandTag = s.demand.nextTag + BitVec.ofNat 8 n := htag
  have ho : ownReadNow t p s rq =
      ⟨(s.queueDemand (rq.entry p s.freshDemandTag)).chooseIfIdle t, .queued, [s.freshDemandTag]⟩ := by
    simp only [ownReadNow, State.judgeReadNow_admits h h2 h6]
  refine ⟨n, hbefore, ?_⟩
  rw [← htag']
  exact ⟨hfresh, congrArg Host.Outcome.next (State.serve_answered ha hr ho (State.chooseIfIdle_ports _ t))⟩

/-- Settles O35, check by check. -/
theorem captureByCase : Obligations.CaptureByCase := by
  intro s t p f rq ha hr
  have refused : ∀ st, s.judgeCapture p rq = some st →
      exec (.capture t p) s = .next { s with ports := s.answered p f st.code [] } := fun st hj =>
    congrArg Host.Outcome.next (State.serve_refused ha hr (by simp only [ownCapture, hj]))
  refine ⟨fun h => refused .conflict (State.judgeCapture_conflict h),
    fun h hp => refused .capturePending (State.judgeCapture_pending h hp), fun h hp => ?_⟩
  have ho : ownCapture t p s rq =
      ⟨((s.queueCapture (rq.entry p s.capture.nextTag)).takeHead t).chooseIfIdle t, .queued,
        [s.capture.nextTag]⟩ := by
    simp only [ownCapture, State.judgeCapture_admits h hp]
  refine congrArg Host.Outcome.next (State.serve_answered ha hr ho ?_)
  rw [State.chooseIfIdle_ports, State.takeHead_frame]
  rfl

/-- Settles O36, by the head's trigger. -/
theorem bankTakesTheHead : Obligations.BankTakesTheHead := by
  intro s t
  refine ⟨fun cp rest line edge ms hb hl htr hms => ?_, fun cp rest hb hl htr => ?_, State.takeHead_other t⟩
  · rw [State.takeHead_free t hb hl]
    simp only [State.takeIntoBank, htr, hms, Option.getD_some]
    rfl
  · rw [State.takeHead_free t hb hl]
    simp only [State.takeIntoBank, htr]
    rfl

/-- Settles O37, by where the capture stands. -/
theorem cancelCaptureByPlace : Obligations.CancelCaptureByPlace := by
  refine ⟨fun s tag => State.captureInFlight_iff, fun s t p f tag ha hf => ?_⟩
  refine ⟨fun h => ⟨fun cp timer hb hp => ?_, fun cp sampled values hb hp => ⟨fun hfl => ?_, fun hfl => ?_⟩,
    fun hw => ?_⟩, fun h => ?_⟩
  · rw [State.exec_cancel ha hf h, State.cancel_armed t hb hp]
    rfl
  · rw [State.exec_cancel ha hf h, State.cancel_holding t hb hp hfl]
    rfl
  · obtain ⟨w, pos, hw, -⟩ := State.captureInFlight_iff.mp hfl
    rw [State.exec_cancel ha hf h, State.cancel_inFlight t hb hp hfl, State.chooseIfIdle_busy]
    · rfl
    · rw [State.setCapture_conv, hw]
      exact Option.some_ne_none w
  · rw [State.exec_cancel ha hf h, State.cancel_waiting t hw]
    rfl
  · have hholds : s.capture.holds p tag = false := by
      rw [← Bool.not_eq_true, CaptureBank.holds_iff]
      rintro ⟨cp, hcp, hcp'⟩
      exact h cp hcp hcp'
    refine ⟨fun hl => ?_, fun hl => ?_⟩
    · exact congrArg Host.Outcome.next (State.serve_refused ha (x := tag) (st := .tooLate) (by rw [hf]; rfl)
        (by simp only [ownCancelCapture, hholds, hl, Bool.false_eq_true, if_false, if_true]))
    · exact congrArg Host.Outcome.next (State.serve_refused ha (x := tag) (st := .notFound) (by rw [hf]; rfl)
        (by simp only [ownCancelCapture, hholds, hl, Bool.false_eq_true, if_false]))

/-- Settles O38, by the bank's state. -/
theorem triggerEdgeByBankState : Obligations.TriggerEdgeByBankState := by
  intro s t line edge
  have hexec : exec (.triggerEdge t line edge) s = .next (s.takeEdge line edge t) := rfl
  rw [hexec]
  refine ⟨fun cp timer hb => ⟨fun htr => ?_, fun htr => ?_⟩,
    fun cp cancelled sampled values hb => ⟨fun hc htr => ?_, fun h => ?_⟩, fun hb => ?_⟩
  · simp only [State.takeEdge, hb, edgeMatches_iff.mpr htr, if_true]
    rw [State.sample_eq]
  · have hm : edgeMatches cp.trigger line edge = false := by
      rw [← Bool.not_eq_true, edgeMatches_iff]
      exact htr
    simp only [State.takeEdge, hb, hm, Bool.false_eq_true, if_false]
  · have hcount : s.takeEdge line edge t = s.countExtraEdge := by
      simp only [State.takeEdge, hb, hc, edgeMatches_iff.mpr htr, Bool.not_false, Bool.and_self, if_true]
    exact congrArg Host.Outcome.next hcount
  · have hm : (!cancelled && edgeMatches cp.trigger line edge) = false := by
      rw [Bool.and_eq_false_iff]
      refine h.imp (fun hc => by rw [hc]; rfl) fun htr => ?_
      rw [← Bool.not_eq_true, edgeMatches_iff]
      exact htr
    simp only [State.takeEdge, hb, hm, Bool.false_eq_true, if_false]
  · simp only [State.takeEdge, hb]

/-- Settles O39, by the bank's state. -/
theorem armTimeoutEndsTheCapture : Obligations.ArmTimeoutEndsTheCapture := by
  intro s cp timer hb
  have hexec : exec .armTimeout s = .next (s.timeoutCapture cp timer) := by
    change execArmTimeout s = _
    simp only [execArmTimeout, hb]
  exact hexec

end Sys2Proof
end

section
/-! SUPPORT. Reading numbers, codes and blocks back from bytes (10.1), and how many records a reply takes (R105). -/

-- In sequence, as the sections above.
set_option Elab.async false

namespace Sys2Proof.Machine

/-! ### Numbers in bytes (R157) -/

theorem toNat_u8 {n : Nat} (h : n ≤ 255) : (u8 n).toNat = n :=
  (BitVec.toNat_ofNat n 8).trans (Nat.mod_eq_of_lt (by omega))

/-- The two bytes of a number make it up again. -/
theorem word_u16 {n : Nat} (h : n ≤ 65535) : (u8 (n / 256)).toNat * 256 + (u8 n).toNat = n := by
  simp only [u8, BitVec.toNat_ofNat]
  omega

theorem word_round (r : RoundNumber) : (u8 (r.toNat / 256)).toNat * 256 + (u8 r.toNat).toNat = r.toNat :=
  word_u16 (Nat.le_of_lt_succ r.isLt)

/-- The four bytes of a number make it up again. -/
theorem long_u32 {n : Nat} (h : n < 4294967296) :
    ((u8 (n / 16777216)).toNat * 256 + (u8 (n / 65536)).toNat) * 65536 +
      ((u8 (n / 256)).toNat * 256 + (u8 n).toNat) = n := by
  simp only [u8, BitVec.toNat_ofNat]
  omega

/-- A code that fits 16 bits of two's complement is read back from its two bytes. -/
theorem code_i16 {v : Int} (h : FitsCode v) {l : List Byte} {k : Nat}
    (hw : wordAt l k = (u8 ((BitVec.ofInt 16 v).toNat / 256)).toNat * 256 +
      (u8 (BitVec.ofInt 16 v).toNat).toNat) : codeAt l k = v := by
  obtain ⟨hlo, hhi⟩ := h
  have hn : ((BitVec.ofInt 16 v).toNat : Int) = v % 65536 := by
    rw [BitVec.toNat_ofInt]
    omega
  rw [word_u16 (Nat.le_of_lt_succ (BitVec.ofInt 16 v).isLt)] at hw
  rw [codeAt, hw]
  split <;> omega

theorem toNat_channel (c : Channel) : (u8 c.val).toNat = c.val :=
  toNat_u8 (by omega)

theorem toNat_resolution (res : Resolution) : (u8 (resolutionBits res)).toNat = resolutionBits res := by
  cases res <;> rfl

theorem toNat_period (per : Period) : (u8 (periodRounds per)).toNat = periodRounds per := by
  cases per <;> rfl

theorem toNat_trigger (tr : Trigger) : (u8 (triggerCode tr)).toNat = triggerCode tr := by
  cases tr with
  | immediate => rfl
  | line l e => cases l <;> cases e <;> rfl

theorem toNat_windowState (st : WindowState) : (u8 (windowStateCode st)).toNat = windowStateCode st := by
  cases st <;> rfl

/-! ### Reading behind what stands in front -/

theorem byteAt_append_left {a b : List Byte} {k : Nat} (h : k < a.length) : byteAt (a ++ b) k = byteAt a k := by
  rw [byteAt, byteAt, List.getD_append _ _ _ _ h]

theorem byteAt_append_right (a b : List Byte) (k : Nat) : byteAt (a ++ b) (a.length + k) = byteAt b k := by
  rw [byteAt, byteAt, List.getD_append_right _ _ _ _ (Nat.le_add_right _ _), Nat.add_sub_cancel_left]

/-- A run of blocks of one length, from the block of an element on. -/
theorem drop_flatMap_blocks {α β : Type} {g : α → List β} {n : Nat} (hg : ∀ x, (g x).length = n)
    (l : List α) (i : Nat) : (l.flatMap g).drop (n * i) = (l.drop i).flatMap g := by
  induction l generalizing i with
  | nil => simp
  | cons x l ih =>
    cases i with
    | zero => rw [Nat.mul_zero, List.drop_zero, List.drop_zero]
    | succ i =>
      have hlen : n * (i + 1) = (g x).length + n * i := by rw [hg, Nat.mul_succ, Nat.add_comm]
      rw [List.flatMap_cons, hlen, List.drop_length_add_append, ih, List.drop_succ_cons]

/-- A byte of an element's block. -/
theorem byteAt_flatMap_blocks {α : Type} {g : α → List Byte} {n : Nat} (hg : ∀ x, (g x).length = n)
    {l : List α} {i j : Nat} {x : α} (hx : l[i]? = some x) (hj : j < n) :
    byteAt (l.flatMap g) (n * i + j) = byteAt (g x) j := by
  have hdrop : (l.flatMap g).drop (n * i) = g x ++ (l.drop (i + 1)).flatMap g := by
    obtain ⟨hi, hget⟩ := List.getElem?_eq_some_iff.mp hx
    rw [drop_flatMap_blocks hg, List.drop_eq_getElem_cons hi, hget, List.flatMap_cons]
  have hbyte : byteAt (l.flatMap g) (n * i + j) = byteAt ((l.flatMap g).drop (n * i)) j := by
    simp only [byteAt, List.getD_eq_getElem?_getD, List.getElem?_drop]
  rw [hbyte, hdrop, byteAt_append_left (by rw [hg]; exact hj)]

/-! ### The channels in order -/

/-- The channels below one, the channel, and those above it. -/
theorem allChannels_split (c : Channel) :
    allChannels = allChannels.take c.val ++ c :: allChannels.drop (c.val + 1) ∧
      (∀ d ∈ allChannels.take c.val, d < c) ∧ ∀ d ∈ allChannels.drop (c.val + 1), ¬d < c := by
  revert c
  decide

theorem allChannels_getElem? (c : Channel) : allChannels[c.val]? = some c := by
  revert c
  decide

/-- A channel that a mask names stands behind the named channels below it (R99). -/
theorem maskChannels_drop {mask : BitVec 16} {c : Channel} (h : mask.getLsbD c.val = true) :
    ∃ rest, (maskChannels mask).drop
      (allChannels.countP fun d => decide (d < c) && mask.getLsbD d.val) = c :: rest := by
  obtain ⟨hsplit, hbelow, habove⟩ := allChannels_split c
  have hcount : (allChannels.countP fun d => decide (d < c) && mask.getLsbD d.val) =
      ((allChannels.take c.val).filter fun d => mask.getLsbD d.val).length := by
    have hlow : (allChannels.take c.val).countP (fun d => decide (d < c) && mask.getLsbD d.val) =
        (allChannels.take c.val).countP fun d => mask.getLsbD d.val :=
      List.countP_congr fun d hd => by simp [hbelow d hd]
    have hhigh : (allChannels.drop (c.val + 1)).countP (fun d => decide (d < c) && mask.getLsbD d.val) = 0 :=
      List.countP_eq_zero.mpr fun d hd => by simp [habove d hd]
    conv_lhs => rw [hsplit]
    rw [List.countP_append, List.countP_cons, hlow, hhigh, List.countP_eq_length_filter]
    simp
  rw [hcount, maskChannels]
  conv in allChannels.filter _ => rw [hsplit]
  rw [List.filter_append, List.filter_cons, if_pos h, List.drop_left]
  exact ⟨_, rfl⟩

/-! ### How many records fit (R105) -/

/-- The records taken fit, the next one would not, and the first is taken if it fits. -/
theorem fitCount_spec (n size : Nat) (l : List Record) (hs : size ≤ maxPayload) :
    fitCount n size l ≤ n ∧ fitCount n size l ≤ l.length ∧
      size + ((l.take (fitCount n size l)).flatMap Record.bytes).length ≤ maxPayload ∧
      (fitCount n size l < n → fitCount n size l < l.length →
        maxPayload < size + ((l.take (fitCount n size l + 1)).flatMap Record.bytes).length) ∧
      ∀ r, l.head? = some r → 0 < n → size + r.bytes.length ≤ maxPayload → 0 < fitCount n size l := by
  induction n generalizing size l with
  | zero => simp [fitCount, hs]
  | succ n ih =>
    cases l with
    | nil => simp [fitCount, hs]
    | cons r l =>
      rw [fitCount]
      by_cases hfit : size + r.size ≤ maxPayload
      · obtain ⟨hn, hl, hsum, hnext, -⟩ := ih (size + r.size) l hfit
        rw [if_pos hfit]
        simp only [List.take_succ_cons, List.flatMap_cons, List.length_append, List.length_cons,
          Record.bytes_length]
        refine ⟨by omega, by omega, by omega, fun h h' => ?_, fun _ _ _ _ => Nat.succ_pos _⟩
        have := hnext (by omega) (by omega)
        omega
      · rw [if_neg hfit]
        refine ⟨Nat.zero_le _, Nat.zero_le _, by simpa using hs, fun _ _ => ?_, fun r' hr _ hle => ?_⟩
        · simp only [Nat.zero_add, List.take_succ_cons, List.take_zero, List.flatMap_cons, List.flatMap_nil,
            List.append_nil, Record.bytes_length]
          omega
        · obtain rfl := Option.some.inj hr
          rw [Record.bytes_length] at hle
          exact absurd hle hfit

/-! ### Load and reserve in four bytes (Table 10-11) -/

theorem cost_le (res : Resolution) (h : Hold) : cost res h ≤ 3300 := by
  cases res <;> cases h <;> decide

theorem ClaimTable.profileCost_le (ct : ClaimTable) (c : Channel) : ct.profileCost c ≤ 3300 := by
  rw [ClaimTable.profileCost_eq]
  cases ct.profile c with
  | none => exact Nat.zero_le _
  | some f => exact cost_le f.resolution f.hold

theorem ClaimTable.worstCost_le (ct : ClaimTable) (c : Channel) : ct.worstCost c ≤ 3300 := by
  by_cases h : ∀ p, ct.get p c = none
  · rw [ClaimTable.worstCost_eq_zero h]
    exact Nat.zero_le _
  · obtain ⟨p, hp⟩ := not_forall.mp h
    obtain ⟨cl, hcl⟩ := Option.ne_none_iff_exists'.mp hp
    obtain ⟨q, cl', -, hcost⟩ := ClaimTable.worstCost_mem hcl
    rw [← hcost]
    exact cost_le _ _

/-- A weight summed over channels, of which there are 16. -/
theorem sumOver_le {weight : Channel → Nat} (hw : ∀ c, weight c ≤ 3300) (pick : Channel → Bool) :
    sumOver pick weight ≤ 16 * 3300 := by
  have hsum : sumOver pick weight ≤ ((allChannels.filter pick).map weight).length • 3300 :=
    List.sum_le_card_nsmul _ _ fun x hx => by
      obtain ⟨c, -, rfl⟩ := List.mem_map.mp hx
      exact hw c
  have hlen : (allChannels.filter pick).length ≤ 16 := List.length_filter_le _ _
  rw [List.length_map, smul_eq_mul] at hsum
  exact hsum.trans (Nat.mul_le_mul_right _ hlen)

/-- The sums of R10 and R11 are far below what four bytes hold. -/
theorem weighted_lt {weight : Channel → Nat} (hw : ∀ c, weight c ≤ 3300) (pick pick' count : Channel → Bool) :
    sumOver pick weight + max 1 (allChannels.filter count).length * sumOver pick' weight < 4294967296 := by
  have h := sumOver_le hw pick
  have h' := sumOver_le hw pick'
  have hlen : max 1 (allChannels.filter count).length ≤ 16 :=
    max_le (by norm_num) (List.length_filter_le _ _)
  have hmul := Nat.mul_le_mul hlen h'
  omega

theorem ClaimTable.load_lt (ct : ClaimTable) : ct.load < 4294967296 :=
  weighted_lt ct.profileCost_le _ _ _

theorem ClaimTable.reserve_lt (ct : ClaimTable) : ct.reserve < 4294967296 :=
  weighted_lt ct.worstCost_le _ _ _

end Sys2Proof.Machine
end

section
/-! SUPPORT. What the layouts of Tables 10-11 to 10-14 hold. -/

-- In sequence, as the sections above.
set_option Elab.async false

namespace Sys2Proof.Machine

/-- A record is laid out as Table 10-13 gives. -/
theorem Record.laidOut (r : Record) : r.LaidOut r.bytes := by
  cases r with
  | plan c v res r slot gap prio clip =>
    refine ⟨rfl, rfl, toNat_channel c, fun h => code_i16 h rfl, toNat_resolution res, word_round r, toNat_u8,
      fun h => ?_⟩
    have hb : byteAt (Record.plan c v res r slot gap prio clip).bytes 8 =
      (u8 (gap % 16 + flagBit 4 prio + flagBit 5 clip)).toNat := rfl
    rw [hb, toNat_u8 (by cases prio <;> cases clip <;> simp only [flagBit] <;> norm_num <;> omega),
      Nat.mod_eq_of_lt (by omega)]
    cases prio <;> cases clip <;> rfl
  | demand tag c v res r clip =>
    refine ⟨rfl, rfl, rfl, toNat_channel c, fun h => code_i16 h rfl, toNat_resolution res, word_round r, ?_⟩
    cases clip <;> rfl
  | capture tag trig r extra values =>
    refine ⟨Record.bytes_length _, rfl, rfl, toNat_trigger trig, word_round r, toNat_u8, toNat_u8, fun k v hv => ?_⟩
    have block : ∀ j, j < 4 → byteAt (Record.capture tag trig r extra values).bytes (7 + (4 * k + j)) =
        byteAt v.bytes j := fun j hj =>
      (byteAt_append_right ([3, tag, u8 (triggerCode trig)] ++ u16 r.toNat ++ [u8 extra, u8 values.length])
        _ _).trans (byteAt_flatMap_blocks CaptureValue.bytes_length hv hj)
    have h0 := block 0 (by norm_num)
    have h1 := block 1 (by norm_num)
    have h2 := block 2 (by norm_num)
    have h3 := block 3 (by norm_num)
    refine ⟨h0.trans (toNat_channel _), fun h => code_i16 h ?_, ?_⟩
    · rw [wordAt, show 8 + 4 * k = 7 + (4 * k + 1) by omega, show 7 + (4 * k + 1) + 1 = 7 + (4 * k + 2) by omega,
        h1, h2]
      rfl
    · rw [show 10 + 4 * k = 7 + (4 * k + 3) by omega, h3]
      have hb : byteAt v.bytes 3 = (u8 (flagBit 0 v.droop + flagBit 1 v.clip)).toNat := rfl
      rw [hb]
      cases v.droop <;> cases v.clip <;> rfl

/-- An event is laid out as Table 10-14 gives. -/
theorem Event.laidOut (e : Event) : e.LaidOut e.bytes := by
  cases e with
  | window c old new v r =>
    exact ⟨rfl, rfl, toNat_channel c, toNat_windowState old, toNat_windowState new, fun h => code_i16 h rfl,
      word_round r⟩
  | roundSlip r ticks => exact ⟨rfl, rfl, word_round r, toNat_u8, rfl⟩
  | captureTimeout tag => exact ⟨rfl, rfl, rfl, rfl⟩
  | profileChanged c res h per prio =>
    refine ⟨rfl, rfl, toNat_channel c, toNat_resolution res, ?_, toNat_period per, ?_, rfl⟩
    · cases h <;> rfl
    · cases prio <;> rfl
  | paceChanged i => exact ⟨rfl, rfl, word_u16, rfl⟩

/-- A READ_TABLE entry is laid out as Table 10-12 gives. -/
theorem TableEntry.laidOut (e : TableEntry) (c : Channel) : e.LaidOut c (e.bytes c) := by
  refine ⟨rfl, toNat_channel c, ?_, fun h => code_i16 h rfl, toNat_resolution _, word_round _⟩
  have hb : byteAt (e.bytes c) 1 =
    (u8 (flagBit 0 e.valid + flagBit 1 (decide (e.source = .demand)) + flagBit 2 e.stale + flagBit 3 e.clip)).toNat :=
    rfl
  rw [hb]
  cases e.valid <;> cases e.source <;> cases e.stale <;> cases e.clip <;> rfl

/-! ### The STATUS payload (Table 10-11) -/

/-- The 19 bytes in front of the channels of a STATUS reply. -/
def State.statusHead (s : State) : List Byte :=
  [u8 (schedulerStateCode s.sched.state)] ++ u16 s.sched.nextRound.toNat ++
    u16 (s.effectiveInterval.getD 0) ++ u16 (s.sched.snapshotInterval.getD 0) ++
    u32 s.claims.load ++ u32 s.claims.reserve ++ u32 (budget (s.effectiveInterval.getD 0))

/-- The five bytes behind the channels of a STATUS reply. -/
def State.statusTail (s : State) (p : Port) : List Byte :=
  [u8 s.demand.entries.length, u8 s.capture.list.length, flagByte (s.sessionOf p).isOpen,
    u8 (if (s.sessionOf p).isOpen then (s.resultsOf p).records.length else 0),
    u8 (if (s.sessionOf p).isOpen then (s.eventsOf p).events.length else 0)]

theorem readNothing_of_length {l : List Byte} (h : (l.length == 0) = true) : readNothing l = some () := by
  rw [List.length_eq_zero_iff.mp (of_decide_eq_true h)]
  rfl

theorem profileBytes_length (f : Option Profile) : (profileBytes f).length = 4 := by
  cases f <;> rfl

theorem State.channelBytes_length (s : State) :
    (allChannels.flatMap fun c => profileBytes (s.profile c)).length = 64 := by
  rw [List.length_flatMap]
  simp only [profileBytes_length]
  rfl

theorem State.statusPayload_eq (s : State) (p : Port) :
    s.statusPayload p =
      s.statusHead ++ ((allChannels.flatMap fun c => profileBytes (s.profile c)) ++ s.statusTail p) :=
  List.append_assoc _ _ _

theorem State.statusPayload_head {s : State} {p : Port} {k : Nat} (h : k < 19) :
    byteAt (s.statusPayload p) k = byteAt s.statusHead k := by
  rw [State.statusPayload_eq, byteAt_append_left h]

/-- The bytes of a channel (R45). -/
theorem State.statusPayload_channel {s : State} {p : Port} (c : Channel) {j : Nat} (h : j < 4) :
    byteAt (s.statusPayload p) (19 + (4 * c.val + j)) = byteAt (profileBytes (s.profile c)) j := by
  have hin : 4 * c.val + j < (allChannels.flatMap fun c => profileBytes (s.profile c)).length := by
    rw [State.channelBytes_length]
    omega
  rw [State.statusPayload_eq]
  refine (byteAt_append_right s.statusHead _ _).trans ?_
  rw [byteAt_append_left hin,
    byteAt_flatMap_blocks (fun c => profileBytes_length (s.profile c)) (allChannels_getElem? c) h]

theorem State.statusPayload_tail {s : State} {p : Port} (j : Nat) :
    byteAt (s.statusPayload p) (83 + j) = byteAt (s.statusTail p) j := by
  have hlen : 83 + j = s.statusHead.length +
      ((allChannels.flatMap fun c => profileBytes (s.profile c)).length + j) := by
    rw [State.channelBytes_length, ← Nat.add_assoc]
    rfl
  rw [State.statusPayload_eq, hlen, byteAt_append_right, byteAt_append_right]

end Sys2Proof.Machine
end

section
/-! The statements of STATUS and of the Result Store's and Event Queues' requests. -/

-- In sequence, as the sections above.
set_option Elab.async false

namespace Sys2Proof

open Machine

/-- Settles O23, by the three parts of the payload: the fields in front, the channels, and the counts behind. -/
theorem statusReportsThePart : Obligations.StatusReportsThePart := by
  intro s p f ha
  obtain ⟨-, -, -, hlen⟩ := id ha
  have hread : readNothing f.payload = some () := readNothing_of_length hlen
  refine ⟨s.statusPayload p, congrArg Host.Outcome.next (State.serve_asks ha hread rfl), ?_, ?_⟩
  · rw [State.statusPayload_eq, List.length_append, List.length_append, State.channelBytes_length]
    rfl
  have head := fun k h => State.statusPayload_head (s := s) (p := p) (k := k) h
  have channel : ∀ (c : Channel) j, j < 4 → byteAt (s.statusPayload p) (19 + j + 4 * c.val) =
      byteAt (profileBytes (s.profile c)) j := fun c j h => by
    rw [← State.statusPayload_channel c h, Nat.add_assoc, Nat.add_comm j]
  have tail := fun j => State.statusPayload_tail (s := s) (p := p) j
  have word : ∀ k, k < 18 → wordAt (s.statusPayload p) k = wordAt s.statusHead k := fun k hk => by
    rw [wordAt, wordAt, head k (by omega), head (k + 1) (by omega)]
  have long : ∀ k, k < 16 → longAt (s.statusPayload p) k = longAt s.statusHead k := fun k hk => by
    rw [longAt, longAt, word k (by omega), word (k + 2) (by omega)]
  refine ⟨?_, (word 1 (by norm_num)).trans (word_round _), fun i hi hle => ⟨?_, ?_⟩, fun hi => ⟨?_, ?_⟩,
    fun i hi hle => ?_, fun hi => ?_, (long 7 (by norm_num)).trans (long_u32 s.claims.load_lt),
    (long 11 (by norm_num)).trans (long_u32 s.claims.reserve_lt), fun c fl hf => ?_, fun c hf => ?_,
    fun hle => (tail 0).trans (toNat_u8 hle), fun hle => (tail 1).trans (toNat_u8 hle), (tail 2).trans ?_,
    fun hle => (tail 3).trans (toNat_u8 ?_) |>.trans rfl, fun hle => (tail 4).trans (toNat_u8 ?_) |>.trans rfl⟩
  · refine (head 0 (by norm_num)).trans (toNat_u8 ?_)
    cases s.sched.state <;> decide
  · refine (word 3 (by norm_num)).trans ((word_u16 (n := s.effectiveInterval.getD 0) ?_).trans ?_) <;> simp [hi, hle]
  · refine (long 15 (by norm_num)).trans ((long_u32 (n := budget (s.effectiveInterval.getD 0)) ?_).trans ?_) <;>
      rw [hi, Option.getD_some, budget]
    omega
  · refine (word 3 (by norm_num)).trans ((word_u16 (n := s.effectiveInterval.getD 0) ?_).trans ?_) <;> simp [hi]
  · refine (long 15 (by norm_num)).trans ((long_u32 (n := budget (s.effectiveInterval.getD 0)) ?_).trans ?_) <;>
      simp [hi, budget]
  · refine (word 5 (by norm_num)).trans ((word_u16 (n := s.sched.snapshotInterval.getD 0) ?_).trans ?_) <;>
      simp [hi, hle]
  · refine (word 5 (by norm_num)).trans ((word_u16 (n := s.sched.snapshotInterval.getD 0) ?_).trans ?_) <;> simp [hi]
  · have h0 := channel c 0 (by norm_num)
    have h1 := channel c 1 (by norm_num)
    have h2 := channel c 2 (by norm_num)
    have h3 := channel c 3 (by norm_num)
    rw [hf] at h0 h1 h2 h3
    refine ⟨h0.trans (toNat_u8 ?_), h1.trans (toNat_resolution _), h2.trans (toNat_period _), h3.trans ?_⟩
    · cases fl.range <;> decide
    · simp only [profileBytes, byteAt, List.getD_cons_succ, List.getD_cons_zero]
      cases fl.hold <;> cases fl.priority <;> rfl
  · have h0 := channel c 0 (by norm_num)
    have h1 := channel c 1 (by norm_num)
    have h2 := channel c 2 (by norm_num)
    have h3 := channel c 3 (by norm_num)
    rw [hf] at h0 h1 h2 h3
    exact ⟨h0, h1, h2, h3⟩
  · cases h : (s.sessionOf p).isOpen <;> simp [State.statusTail, byteAt, State.sessionOpen, h, flagByte]
  · split <;> omega
  · split <;> omega

/-- Settles O42: the count taken is the longest run that fits. -/
theorem getResultsTakesWhatFits : Obligations.GetResultsTakesWhatFits := by
  refine ⟨Record.laidOut, fun s p f n ha hr => ?_⟩
  obtain ⟨hn, hl, hfit, hnext, hfirst⟩ := fitCount_spec n 2 (s.resultsOf p).records (by decide)
  refine ⟨fitCount n 2 (s.resultsOf p).records, ?_, hn, hl, hfit, hnext, fun hne h39 => ?_⟩
  · refine congrArg Host.Outcome.next ((State.serve_asks ha hr rfl).trans ?_)
    simp only [ownGetResults, ResultQueue.takeCount, resultsPayload, List.length_take, List.length_drop,
      Nat.min_eq_left hl]
    rfl
  · obtain ⟨r, l, hrl⟩ := List.exists_cons_of_ne_nil hne
    have hpos : 0 < n := (readUpTo32_bounds hr).1
    refine hfirst r (by rw [hrl]; rfl) hpos ?_
    have := h39 r (by rw [hrl]; exact List.mem_cons_self)
    rw [maxPayload]
    omega

/-- Settles O43, request by request. -/
theorem storeRequests : Obligations.StoreRequests := by
  refine ⟨TableEntry.laidOut, Event.laidOut, fun s p f ha => ⟨fun hl => ?_, fun hl => ?_⟩, fun s p f n ha hr => ?_,
    fun s p f mask ha hr => ?_, fun s p f n ha hr => ?_⟩
  · obtain ⟨-, -, -, hlen⟩ := id ha
    have ho : ownResume p s () =
        ⟨s.setResults p { s.resultsOf p with lapsed := false, lost := 0 }, .ok, u16 (s.resultsOf p).lost⟩ := by
      simp only [ownResume, hl, if_true]
    exact congrArg Host.Outcome.next (State.serve_answered ha (readNothing_of_length hlen) ho rfl)
  · obtain ⟨-, -, -, hlen⟩ := id ha
    have ho : ownResume p s () = ⟨s, .ok, u16 0⟩ := by
      simp only [ownResume, hl, Bool.false_eq_true, if_false]
    exact congrArg Host.Outcome.next (State.serve_answered ha (readNothing_of_length hlen) ho rfl)
  · exact congrArg Host.Outcome.next (State.serve_asks ha hr rfl)
  · refine ⟨(maskChannels mask).flatMap fun c => (s.table.get c).bytes c,
      congrArg Host.Outcome.next (State.serve_asks ha hr rfl), ?_, fun c hc => ?_⟩
    all_goals have hblock : ∀ c, ((s.table.get c).bytes c).length = 7 := fun _ => rfl
    · rw [List.length_flatMap]
      simp only [hblock, List.map_const', List.sum_replicate, smul_eq_mul, maskChannels,
        List.countP_eq_length_filter, Nat.mul_comm]
    · obtain ⟨rest, hrest⟩ := maskChannels_drop hc
      rw [drop_flatMap_blocks hblock, hrest, List.flatMap_cons]
      exact List.take_left' (hblock c)
  · refine congrArg Host.Outcome.next ((State.serve_asks ha hr rfl).trans ?_)
    simp only [ownGetEvents, eventsPayload, List.length_take, List.length_drop]
    rfl

end Sys2Proof
end

section
/-! SUPPORT. What runs of classifications, events and records leave (R103, R117, R120). -/

-- In sequence, as the sections above.
set_option Elab.async false

namespace Sys2Proof.Machine

/-! ### Confirmation (R117) -/

theorem watchStep_unknown (n : Nat) (cand : Option Candidate) (k : WindowState) :
    watchStep n .unknown cand k = ⟨k, none, decide (k ≠ .inside)⟩ :=
  if_pos rfl

theorem watchStep_same {n : Nat} {st : WindowState} (cand : Option Candidate) (h : st ≠ .unknown) :
    watchStep n st cand st = ⟨st, none, false⟩ := by
  rw [watchStep, if_neg h, if_pos rfl]

/-- A differing classification confirms at the count, and counts below it. -/
theorem watchStep_differs {n : Nat} {st k : WindowState} (cand : Option Candidate) (h : st ≠ .unknown) (hk : k ≠ st) :
    watchStep n st cand k =
      if candidateCount cand k = n then ⟨k, none, true⟩
      else ⟨st, some ⟨k, candidateCount cand k⟩, false⟩ := by
  rw [watchStep, if_neg h, if_neg hk]

theorem candidateCount_start {cand : Option Candidate} {k : WindowState} (h : ∀ c, cand = some c → c.state ≠ k) :
    candidateCount cand k = 1 := by
  cases cand with
  | none => rfl
  | some c => exact if_neg (h c rfl)

theorem candidateCount_next (k : WindowState) (j : Nat) : candidateCount (some ⟨k, j⟩) k = j + 1 :=
  if_pos rfl

/-- A run of like classifications that differ from the state: it counts up to the confirm count and not to it. -/
theorem watch_run {n : Nat} {st k : WindowState} {cand : Option Candidate} (h : st ≠ .unknown) (hk : k ≠ st)
    (hc : ∀ c, cand = some c → c.state ≠ k) {j : Nat} (hj : j + 1 < n) :
    (fun x : WatchResult => watchStep n x.state x.candidate k)^[j + 1] ⟨st, cand, false⟩ =
      ⟨st, some ⟨k, j + 1⟩, false⟩ := by
  induction j with
  | zero =>
    rw [Function.iterate_one, watchStep_differs cand h hk, candidateCount_start hc, if_neg (by omega)]
  | succ j ih =>
    rw [Function.iterate_succ_apply', ih (by omega), watchStep_differs _ h hk, candidateCount_next,
      if_neg (by omega)]

/-- The run confirms at the confirm count. -/
theorem watch_run_confirms {n : Nat} {st k : WindowState} {cand : Option Candidate} (hn : 1 ≤ n)
    (h : st ≠ .unknown) (hk : k ≠ st) (hc : ∀ c, cand = some c → c.state ≠ k) :
    (fun x : WatchResult => watchStep n x.state x.candidate k)^[n] ⟨st, cand, false⟩ = ⟨k, none, true⟩ := by
  obtain ⟨m, rfl⟩ := Nat.exists_eq_add_of_le' hn
  rw [Function.iterate_succ_apply']
  cases m with
  | zero => rw [Function.iterate_zero_apply, watchStep_differs cand h hk, candidateCount_start hc, if_pos rfl]
  | succ m =>
    rw [watch_run h hk hc (Nat.lt_succ_self _), watchStep_differs _ h hk, candidateCount_next, if_pos rfl]

/-! ### Queues (R103, R120) -/

/-- An event queue of at most 8 keeps its newest 8 events. -/
theorem EventQueue.foldl_append (q : EventQueue) (l : List Event) (hq : q.events.length ≤ 8) :
    (l.foldl EventQueue.append q).events = (q.events ++ l).drop (q.events.length + l.length - 8) ∧
      (l.foldl EventQueue.append q).lost = (q.lost || decide (8 < q.events.length + l.length)) := by
  induction l generalizing q with
  | nil =>
    have hdrop : q.events.length - 8 = 0 := Nat.sub_eq_zero_of_le hq
    simp [hdrop, Nat.not_lt.mpr hq]
  | cons e l ih =>
    rw [List.foldl_cons]
    by_cases hlt : q.events.length < 8
    · have happ : q.append e = { q with events := q.events ++ [e] } := if_pos hlt
      obtain ⟨hevents, hlost⟩ := ih (q.append e) (by rw [happ]; simpa using hlt)
      rw [hevents, hlost, happ]
      simp only [List.length_append, List.length_cons, List.length_nil, List.append_assoc, List.cons_append,
        List.nil_append, Nat.add_assoc, Nat.add_comm 1, and_self]
    · have happ : q.append e = ⟨q.events.drop 1 ++ [e], true⟩ := if_neg hlt
      have hlen : q.events.length = 8 := by omega
      have hfull : (q.append e).events.length = 8 := by simp [happ, hlen]
      obtain ⟨hevents, hlost⟩ := ih (q.append e) hfull.le
      rw [hevents, hlost, hfull, happ, hlen]
      obtain ⟨a, rest, hcons⟩ := List.exists_cons_of_length_pos (l := q.events) (by omega)
      refine ⟨?_, ?_⟩
      · rw [hcons, show 8 + l.length - 8 = l.length by omega, List.length_cons,
          show 8 + (l.length + 1) - 8 = l.length + 1 by omega]
        simp
      · simp

/-- A LAPSED result queue counts every record it is handed, to the greatest count. -/
theorem ResultQueue.foldl_lapsed (q : ResultQueue) (l : List Record) (hl : q.lapsed = true) (hle : q.lost ≤ 65535) :
    l.foldl ResultQueue.handRecord q = { q with lost := min (q.lost + l.length) 65535 } := by
  induction l generalizing q with
  | nil => rw [List.foldl_nil, List.length_nil, Nat.add_zero, Nat.min_eq_left hle]
  | cons r l ih =>
    have hhand : q.handRecord r = { q with lost := min (q.lost + 1) 65535 } := by
      rw [ResultQueue.handRecord, if_pos hl]
      rfl
    rw [List.foldl_cons, ih (q.handRecord r) (by rw [hhand]; exact hl) (by rw [hhand]; exact min_le_right _ _), hhand,
      List.length_cons]
    congr 1
    dsimp only
    omega

/-- A result queue that is not LAPSED keeps the first 32 records, and lapses with the count of the others. -/
theorem ResultQueue.foldl_handRecord (q : ResultQueue) (l : List Record) (hl : q.lapsed = false) (h0 : q.lost = 0)
    (hlen : q.records.length ≤ 32) :
    l.foldl ResultQueue.handRecord q =
      { records := (q.records ++ l).take 32
        lapsed := decide (32 < q.records.length + l.length)
        lost := min (q.records.length + l.length - 32) 65535
        watermark := q.watermark } := by
  have hnot : ¬q.lapsed = true := by simp [hl]
  induction l generalizing q with
  | nil =>
    obtain ⟨records, lapsed, lost, watermark⟩ := q
    obtain rfl : lapsed = false := hl
    obtain rfl : lost = 0 := h0
    have hnone : records.length - 32 = 0 := Nat.sub_eq_zero_of_le hlen
    have hle : ¬32 < records.length := Nat.not_lt.mpr hlen
    simp only [List.foldl_nil, List.append_nil, List.length_nil, Nat.add_zero, List.take_of_length_le hlen, hnone,
      decide_eq_false hle, Nat.zero_min]
  | cons r l ih =>
    rw [List.foldl_cons]
    by_cases hlt : q.records.length < 32
    · have hhand : q.handRecord r = { q with records := q.records ++ [r] } := by
        rw [ResultQueue.handRecord, if_neg hnot, if_pos (by exact hlt)]
      rw [ih (q.handRecord r) (by rw [hhand]; exact hl) (by rw [hhand]; exact h0)
        (by rw [hhand]; simpa using hlt) (by rw [hhand]; exact hnot), hhand]
      simp only [List.length_append, List.length_cons, List.length_nil, List.append_assoc, List.cons_append,
        List.nil_append, Nat.add_assoc, Nat.add_comm 1]
    · have hfull : q.records.length = 32 := by omega
      have hhand : q.handRecord r = { q with lapsed := true, lost := 1 } := by
        rw [ResultQueue.handRecord, if_neg hnot, if_neg (by exact hlt)]
      rw [ResultQueue.foldl_lapsed _ l (by rw [hhand]) (by rw [hhand]; norm_num), hhand, List.length_cons,
        List.take_left' hfull, hfull]
      have hlost : 32 + (l.length + 1) - 32 = 1 + l.length := by omega
      have hlapsed : 32 < 32 + (l.length + 1) := by omega
      simp only [hlost, decide_eq_true hlapsed]

theorem ResultQueue.accepts_iff {q : ResultQueue} :
    q.accepts = true ↔ q.lapsed = false ∧ q.records.length < 32 := by
  rw [ResultQueue.accepts, Bool.and_eq_true, Bool.not_eq_true', decide_eq_true_eq]
  rfl

theorem ResultQueue.handRecord_records (q : ResultQueue) (r : Record) :
    (q.handRecord r).records = if q.accepts then q.records ++ [r] else q.records := by
  unfold ResultQueue.handRecord ResultQueue.accepts
  cases q.lapsed <;> by_cases h : q.records.length < maxRecords <;> simp [h]

end Sys2Proof.Machine
end

section
/-! The statements of window confirmation and of the queues. -/

-- In sequence, as the sections above.
set_option Elab.async false

namespace Sys2Proof

open Machine

/-- Settles O46, by induction on the length of a run of like classifications. -/
theorem windowConfirmation : Obligations.WindowConfirmation := by
  refine ⟨fun cl v => ⟨fun hw => ?_, fun w hw => ?_, fun c r => ⟨fun he => ?_, fun he => ?_⟩⟩,
    fun n st k cand hn hk =>
      ⟨watchStep_unknown n cand k, watchStep_same cand, fun h hne hc => ⟨fun j hj hlt => ?_, ?_⟩⟩⟩
  · simp only [Claim.watch, hw]
  · simp only [Claim.watch, hw]
  · simp only [Claim.windowEvent, he, Bool.false_eq_true, if_false]
  · simp only [Claim.windowEvent, he, if_true]
  · obtain ⟨m, rfl⟩ := Nat.exists_eq_add_of_le' hj
    exact watch_run h hne hc hlt
  · exact watch_run_confirms hn h hne hc

/-- Settles O47, by induction on what is handed. -/
theorem queuesTakeWhatIsHanded : Obligations.QueuesTakeWhatIsHanded :=
  ⟨fun q r => ⟨ResultQueue.accepts_iff, q.handRecord_records r⟩, EventQueue.foldl_append, fun q l =>
    ⟨q.foldl_handRecord l, q.foldl_lapsed l⟩⟩

end Sys2Proof
end

section
/-! SUPPORT. OPEN, the teardown in every block, and the ways a session ends (chapter 8). -/

-- In sequence, as the sections above.
set_option Elab.async false

namespace Sys2Proof.Machine

/-! ### The teardown of the work in flight and of the bank (R59, R94) -/

/-- A demand of the session gets requester gone; other work is left (R59). -/
theorem Work.teardown_kind (w : Work) (p : Port) :
    w.teardown p =
      { w with
        kind :=
          match w.kind with
          | .demand tag q gone => .demand tag q (gone || decide (q = p))
          | k => k } := by
  obtain ⟨kind, c, r, res, h, start, finish⟩ := w
  cases kind with
  | plan slot => rfl
  | capture tag pos => rfl
  | demand tag q gone =>
    by_cases hq : q = p
    · simp [Work.teardown, hq]
    · simp [Work.teardown, hq]

/-- A teardown in every block but the Capture Bank, field by field (Table 8-3). -/
theorem State.teardownBlocks_eq (s : State) (p : Port) :
    s.teardownBlocks p =
      { s with
        claims := s.claims.removeSession p
        sched := { s.sched with plan := removeHolder s.sched.plan p }
        conv :=
          { s.conv with
            work :=
              s.conv.work.map fun w =>
                { w with
                  kind :=
                    match w.kind with
                    | .demand tag q gone => .demand tag q (gone || decide (q = p))
                    | k => k } }
        demand := { s.demand with entries := s.demand.entries.filter fun d => d.session != p }
        results := s.results.set p { s.resultsOf p with records := [], lapsed := false, lost := 0 }
        events := s.events.set p { events := [], lost := false }
        sessions := s.sessions.set p { s.sessionOf p with isOpen := false, leaseTimer := none } } := by
  have hwork : (fun w : Work => w.teardown p) = fun w => { w with
      kind :=
        match w.kind with
        | .demand tag q gone => .demand tag q (gone || decide (q = p))
        | k => k } := funext fun w => w.teardown_kind p
  rw [State.teardownBlocks, hwork]
  rfl

/-- What the cancel of a teardown's capture finds: the other blocks torn down, and the session's last finished tag
none (R94). -/
def State.tornBlocks (s : State) (p : Port) : State :=
  (s.teardownBlocks p).setCapture { s.capture with lastFinished := s.capture.lastFinished.set p none }

theorem State.tornBlocks_inFlight (s : State) (p : Port) (tag : Tag) :
    (s.tornBlocks p).captureInFlight tag = s.captureInFlight tag := by
  rw [Bool.eq_iff_iff, State.captureInFlight_iff, State.captureInFlight_iff]
  change (∃ w pos, (s.conv.work.map fun w => w.teardown p) = some w ∧ w.kind = .capture tag pos) ↔ _
  cases s.conv.work with
  | none => simp
  | some w => simp [Work.teardown_capture]

/-- What a FREE bank takes depends on the captures and the analog levels alone (R81, R82). -/
theorem State.takeHead_congr {s u : State} (t : Nat) (hc : u.capture = s.capture) (ha : u.analog = s.analog) :
    (u.takeHead t).capture = (s.takeHead t).capture := by
  have hmeasure : ∀ c r, u.measure c r t = s.measure c r t := fun c r => by
    simp only [State.measure, State.ain, State.amid, ha]
  have hfresh : u.freshValue t = s.freshValue t := funext fun it => by
    simp only [State.freshValue, hmeasure]
  by_cases h : s.capture.bank ≠ .free ∨ s.capture.list = []
  · rw [State.takeHead_other t h, State.takeHead_other t (by rwa [hc]), hc]
  · obtain ⟨hb, hl⟩ := not_or.mp h
    obtain ⟨cp, rest, hl⟩ := List.exists_cons_of_ne_nil hl
    rw [State.takeHead_free t (not_not.mp hb) hl,
      State.takeHead_free t (by rw [hc]; exact not_not.mp hb) (by rw [hc]; exact hl)]
    cases htr : cp.trigger with
    | immediate =>
      have sampled : ∀ v : State, (v.takeIntoBank cp t).capture =
          { v.capture with
            extraEdges := 0
            bank := .holding cp false t (cp.items.map (v.freshValue t)) } := fun v => by
        simp only [State.takeIntoBank, htr]
        rfl
      rw [sampled, sampled, hc, hfresh]
    | line l e =>
      simp only [State.takeIntoBank, htr, State.setCapture_capture, hc]

section tornCapture

variable {s : State} (p : Port) (t : Nat)

/-- The captures that a teardown leaves. -/
def State.tornCapture (s : State) (p : Port) (t : Nat) : CaptureBank :=
  ((s.teardownBlocks p).teardownCapture p t).capture

theorem State.tornCapture_none (h : ∀ cp ∈ s.capture.list, cp.session ≠ p) :
    s.tornCapture p t = { s.capture with lastFinished := s.capture.lastFinished.set p none } := by
  have hnone : (s.teardownBlocks p).capture.captureOf p = none :=
    List.find?_eq_none.mpr fun cp hcp => by simpa using h cp hcp
  simp only [State.tornCapture, State.teardownCapture, hnone, Option.isSome_none, Bool.false_eq_true, if_false]
  rfl

/-- A listed capture is cancelled, with its session's last finished tag none (R94). -/
theorem State.tornCapture_some (h : ∃ cp ∈ s.capture.list, cp.session = p) :
    s.tornCapture p t =
      ((s.tornBlocks p).cancel p t).capture := by
  have hsome : ((s.teardownBlocks p).capture.captureOf p).isSome = true := by
    obtain ⟨cp, hcp, hp⟩ := h
    exact List.find?_isSome.mpr ⟨cp, hcp, decide_eq_true hp⟩
  simp only [State.tornCapture, State.teardownCapture, hsome, if_true]
  rfl

/-- A capture that is not the bank's, or none, leaves the list alone. -/
theorem State.tornCapture_waiting
    (h : s.capture.bank = .free ∨ (∃ cp timer, s.capture.bank = .armed cp timer ∧ cp.session ≠ p) ∨
      ∃ cp cancelled sampled values, s.capture.bank = .holding cp cancelled sampled values ∧
        (cancelled = true ∨ cp.session ≠ p)) :
    s.tornCapture p t =
      { s.capture with
        list := s.capture.list.filter fun cp => cp.session != p
        lastFinished := s.capture.lastFinished.set p none } := by
  by_cases hl : ∃ cp ∈ s.capture.list, cp.session = p
  · rw [State.tornCapture_some p t hl, State.cancel_waiting (s := s.tornBlocks p) t h]
    rfl
  · have hnone : ∀ cp ∈ s.capture.list, cp.session ≠ p := fun cp hcp he => hl ⟨cp, hcp, he⟩
    rw [State.tornCapture_none p t hnone, List.filter_eq_self.mpr fun cp hcp => by simpa using hnone cp hcp]

/-- The bank's own capture out of a bank without a conversion of it in flight: the bank takes the next head. -/
theorem State.tornCapture_freed (hl : ∃ cp ∈ s.capture.list, cp.session = p)
    (h : (∃ cp timer, s.capture.bank = .armed cp timer ∧ cp.session = p) ∨
      ∃ cp sampled values, s.capture.bank = .holding cp false sampled values ∧ cp.session = p ∧
        s.captureInFlight cp.tag = false) :
    s.tornCapture p t =
      (State.takeHead
        { s with
          capture :=
            { s.capture with
              list := s.capture.list.filter fun cp => cp.session != p
              bank := .free
              lastFinished := s.capture.lastFinished.set p none } } t).capture := by
  rw [State.tornCapture_some p t hl]
  rcases h with ⟨cp, timer, hb, hp⟩ | ⟨cp, sampled, values, hb, hp, hf⟩
  · rw [State.cancel_armed (s := s.tornBlocks p) t hb hp]
    exact State.takeHead_congr t rfl rfl
  · rw [State.cancel_holding (s := s.tornBlocks p) t hb hp ((s.tornBlocks_inFlight p cp.tag).trans hf)]
    exact State.takeHead_congr t rfl rfl

/-- The bank's own capture with a conversion of it in flight: marked cancelled, its values dropped (R91). -/
theorem State.tornCapture_inFlight {cp : Capture} {sampled : Nat} {values : List ValueSlot}
    (hl : ∃ cp ∈ s.capture.list, cp.session = p) (hb : s.capture.bank = .holding cp false sampled values)
    (hp : cp.session = p) (hf : s.captureInFlight cp.tag = true) :
    s.tornCapture p t =
      { s.capture with
        list := s.capture.list.filter fun cp => cp.session != p
        bank := .holding cp true sampled (values.map fun v => { v with result := none })
        lastFinished := s.capture.lastFinished.set p none } := by
  rw [State.tornCapture_some p t hl,
    State.cancel_inFlight (s := s.tornBlocks p) t hb hp ((s.tornBlocks_inFlight p cp.tag).trans hf)]
  rfl

end tornCapture

/-- Interstitial work taken gives a session nothing. -/
theorem State.HoldsNothing.takeInterstitial {s : State} {p : Port} (h : s.HoldsNothing p) (t : Nat) :
    (s.takeInterstitial t).HoldsNothing p := by
  rcases s.takeInterstitial_work t with he | ⟨cp, pos, it, -, he⟩ | ⟨d, -, he⟩ <;> rw [he]
  · exact h
  · exact h.mono
  · exact h.mono (hdemand := fun _ hd _ => List.mem_of_mem_erase hd)

/-! ### Requests that end or open a session -/

theorem State.teardown_sessionOf (s : State) (p : Port) (t : Nat) :
    (s.teardown p t).sessionOf p = (s.sessionOf p).close := by
  rw [State.sessionOf, State.teardown_sessions, PerPort.get_set_self]

/-- A request that passes the common checks and reads is its owner's, whatever ports the owner leaves. -/
theorem State.serve_owner {α : Type} {s : State} {p : Port} {f : Frame} {k : Kind}
    {read : List Byte → Option α} {owner : State → α → Answer} {x : α} (h : s.Asks p f k)
    (hr : read f.payload = some x) :
    s.serve p k read owner =
      (owner s x).state.makeReady p (replyTo f (owner s x).status (owner s x).payload) := by
  obtain ⟨hf, hk, hopen, hlen⟩ := h
  have hsession : (k.needsSession && !s.sessionOpen p) = false := by
    cases hk' : k.needsSession with
    | false => rfl
    | true => simp [State.sessionOpen, hopen hk']
  simp only [State.serve, hf, hk, if_true, State.answerOf, State.commonRefusal, hsession, hlen, hr,
    Bool.not_true, Bool.false_eq_true, if_false]

/-- LINK_RESET in terms of what is torn down: the flags cleared, the port emptied and answered (R137, R156). -/
theorem State.exec_linkReset {s : State} {p : Port} {f : Frame} {t : Nat} (ha : s.Asks p f .linkReset) :
    exec (.linkReset t p) s =
      .next
        { s.teardownIfOpen p t with
          sessions := (s.teardownIfOpen p t).sessions.set p ((s.teardownIfOpen p t).sessionOf p).clearFlags
          ports :=
            (s.teardownIfOpen p t).ports.set p
              { (s.teardownIfOpen p t).portOf p with
                request := none
                reply := some ⟨f.kind, f.sequence, 0, []⟩
                lastReply := some ⟨f.kind, f.sequence, 0, []⟩
                memory := none
                dropped := false } } := by
  obtain ⟨-, -, -, hlen⟩ := id ha
  refine congrArg Host.Outcome.next ((State.serve_owner ha (readNothing_of_length hlen)).trans ?_)
  simp only [ownLinkReset, State.makeReady, State.setPort_portOf_self]
  generalize s.teardownIfOpen p t = u
  simp only [State.setPort, State.setSession, PerPort.set_set]
  rfl

end Sys2Proof.Machine
end

section
/-! The statements of the sessions, and of the laws at reset. -/

-- In sequence, as the sections above.
set_option Elab.async false

namespace Sys2Proof

open Machine

/-- Settles O3: every law is kept by a reset. -/
theorem resetKeepsTheLaws : Obligations.ResetKeepsTheLaws := by
  have hreset : State.reset = State.reset.resetPart (.const 0) := rfl
  have hwork : State.reset.conv.work = none := rfl
  have hcaptures : State.reset.CapturesLawful := ⟨Nat.zero_le _, List.nodup_nil, nofun, rfl⟩
  have hnothing : ∀ p, State.reset.HoldsNothing p := fun p => hreset ▸ .reset State.reset (.const 0) p
  have hsettled : State.reset.SchedSettled :=
    ⟨⟨fun _ => ⟨fun c => PerChannel.get_const _ c, rfl, rfl, rfl⟩, fun _ => rfl, Nat.zero_le _, nofun⟩,
      fun h => absurd h (State.not_planInFlight hwork), nofun⟩
  refine ⟨hreset ▸ .resetPart State.reset (.const 0), ClaimTable.Lawful.empty,
    State.schedulerLawful_iff.mpr ⟨hsettled, nofun⟩, fun _ => rfl, nofun, hreset ▸ .reset State.reset (.const 0),
    .of_idle hwork, ⟨Nat.zero_le _, fun _ => Nat.zero_le _, nofun⟩, ⟨Nat.zero_le _, List.nodup_nil⟩, hcaptures,
    trivial, ⟨Nat.zero_le _, nofun, nofun, nofun⟩, fun p => ?_, fun p => ?_, fun p => ?_,
    ⟨hcaptures, nofun, fun p _ => hnothing p⟩, fun p => ?_, ?_⟩
  · rw [State.resultsOf, State.reset, PerPort.get_const]
    exact nofun
  · rw [State.resultsOf, State.reset, PerPort.get_const, ResultQueue.Bounded]
    decide
  · rw [State.eventsOf, State.reset, PerPort.get_const, EventQueue.Bounded]
    decide
  · rw [State.sessionOf, State.reset, PerPort.get_const]
    exact .reset 0
  · refine State.memoriesAnswered_iff.mpr fun p => ?_
    rw [State.portOf, State.reset, PerPort.get_const]
    exact ⟨nofun, nofun⟩

/-- Settles O48, by whether the session is OPEN. -/
theorem openByState : Obligations.OpenByState := by
  intro s t p f rq ha hr
  refine ⟨fun hc => ?_, fun ho => ?_⟩
  · have howner : ownOpen t p s rq =
        ⟨(s.setSession p ((s.sessionOf p).opened rq t)).setResults p
          { s.resultsOf p with watermark := watermarkOf rq.watermark }, .ok,
          openPayload ((s.sessionOf p).epoch + 1)⟩ := by
      simp only [ownOpen, hc, Bool.false_eq_true, if_false]
    exact congrArg Host.Outcome.next (State.serve_answered ha hr howner rfl)
  · exact congrArg Host.Outcome.next
      (State.serve_refused ha hr (st := .alreadyOpen) (by simp only [ownOpen, ho, if_true]))

/-- Settles O49: the blocks are torn down one by one, and the capture leaves the bank by where it stands. -/
theorem teardownInEveryBlock : Obligations.TeardownInEveryBlock := by
  intro s p t hs hround
  have htorn : (s.teardownBlocks p).teardownCapture p t = (s.teardownBlocks p).setCapture (s.tornCapture p t) :=
    State.teardownCapture_frame _ p t
  have hblocks : (s.teardownBlocks p).conv.work = s.conv.work.map fun w => w.teardown p := rfl
  have hinRound : ∀ x : Plan, ({ s.sched with plan := x } : Scheduler).inRound = s.sched.inRound := fun _ => rfl
  have hidle : s.conv.work = none →
      s.teardown p t = ((s.teardownBlocks p).teardownCapture p t).takeInterstitial t := fun hw => by
    have hr : s.sched.inRound = false := by
      by_contra hr
      exact hround (by simpa using hr) hw
    rw [State.teardown, State.chooseIfIdle_idle t (by rw [htorn, State.setCapture_conv, hblocks, hw]; rfl),
      State.choose_outside t (by rw [htorn]; exact (hinRound _).trans hr)]
  have hbusy : s.conv.work ≠ none → s.teardown p t = (s.teardownBlocks p).teardownCapture p t := fun hw => by
    rw [State.teardown, State.chooseIfIdle_busy t]
    rw [htorn, State.setCapture_conv, hblocks]
    simpa using hw
  refine ⟨?_, s.claims.removeSession p, removeHolder s.sched.plan p, s.tornCapture p t, ?_⟩
  · by_cases hw : s.conv.work = none
    · rw [hidle hw]
      exact (State.HoldsNothing.torn_self s p t).takeInterstitial t
    · rw [hbusy hw]
      exact State.HoldsNothing.torn_self s p t
  dsimp only
  refine ⟨fun q c => ClaimTable.get_removeSession _ _ _ _, fun c => PerChannel.get_tabulate _ _,
    State.tornCapture_none p t, fun cp timer hb => ?_, fun cp cancelled sampled values hb => ?_,
    fun hw => ?_, fun hw => ?_⟩
  · split
    · rename_i hp
      exact State.tornCapture_freed p t ⟨cp, hs.agrees.armed_mem hb, hp⟩ (.inl ⟨cp, timer, hb, hp⟩)
    · rename_i hp
      exact State.tornCapture_waiting p t (.inr (.inl ⟨cp, timer, hb, hp⟩))
  · split
    · rename_i h
      exact State.tornCapture_waiting p t (.inr (.inr ⟨cp, cancelled, sampled, values, hb, h.symm⟩))
    · rename_i h
      obtain ⟨hp, hc⟩ := not_or.mp h
      obtain rfl : cancelled = false := by simpa using hc
      have hp : cp.session = p := not_not.mp hp
      have hl : ∃ cp ∈ s.capture.list, cp.session = p :=
        ⟨cp, List.mem_of_mem_head? ((hs.agrees.holding_head hb).2 rfl), hp⟩
      split
      · rename_i hf
        exact State.tornCapture_inFlight p t hl hb hp hf
      · rename_i hf
        exact State.tornCapture_freed p t hl (.inr ⟨cp, sampled, values, hb, hp, by simpa using hf⟩)
  · rw [hbusy hw, htorn, State.teardownBlocks_eq]
    rfl
  · rw [hidle hw, htorn, State.teardownBlocks_eq]
    rfl

/-- Settles O50, from the teardown's frame. -/
theorem sessionsEnd : Obligations.SessionsEnd := by
  refine ⟨fun s t p f ha => ?_, fun s t p f ha => ⟨fun ho => ?_, fun hc => ?_⟩, fun s p t ho ht => ?_⟩
  · obtain ⟨-, -, -, hlen⟩ := id ha
    exact congrArg Host.Outcome.next (State.serve_asks ha (readNothing_of_length hlen) (State.teardown_ports s p t))
  · have htorn : s.teardownIfOpen p t = s.teardown p t := by simp only [State.teardownIfOpen, ho, if_true]
    rw [State.exec_linkReset ha, htorn, State.portOf, State.teardown_ports, State.teardown_sessionOf,
      State.teardown_sessions, PerPort.set_set]
    rfl
  · have hsame : s.teardownIfOpen p t = s := by
      simp only [State.teardownIfOpen, hc, Bool.false_eq_true, if_false]
    rw [State.exec_linkReset ha, hsame]
    rfl
  · have hexec : exec (.leaseExpiry p) s = .next (s.expire p t) := by
      change execLeaseExpiry p s = _
      simp only [execLeaseExpiry, ht, ho, if_true]
    rw [hexec, State.expire, State.setSession, State.teardown_sessionOf, State.teardown_sessions, PerPort.set_set]
    rfl

end Sys2Proof
end

section
/-! SUPPORT. What the release of a selection does with its frame (9.2 to 9.6). -/
-- In sequence, as the sections above.
set_option Elab.async false

namespace Sys2Proof.Machine

/-! ### The kinds by their bytes -/

/-- The kind of a byte is its row of Table 10-4 (R160). -/
theorem kindOf_eq_lookup (b : Byte) :
    kindOf b =
      [(0x01, Kind.openKind), (0x02, .close), (0x03, .linkReset), (0x04, .status),
        (0x05, .repeatKind), (0x10, .setPace), (0x11, .claim), (0x12, .release), (0x20, .readNow),
        (0x21, .capture), (0x22, .cancelCapture), (0x30, .getResults), (0x31, .resume),
        (0x32, .readTable), (0x33, .setWatermark), (0x40, .getEvents)].lookup b.toNat := by
  revert b; decide

theorem kindOf_repeat_iff (b : Byte) : kindOf b = some .repeatKind ↔ b = 5 := by
  revert b; decide

/-! ### A frame judged -/

namespace HostPort

variable {h : HostPort} {f : Frame}

theorem takesFrame_of_empty (hq : h.request = none) (hr : h.reply = none) : h.takesFrame = true := by
  simp [takesFrame, hq, hr]

/-- A frame is taken only with both slots EMPTY (R140). -/
theorem takesFrame_of_occupied (ho : h.request.isSome = true ∨ h.reply.isSome = true) :
    h.takesFrame = false := by
  rcases ho with ho | ho <;> obtain ⟨x, hx⟩ := Option.isSome_iff_exists.mp ho <;> simp [takesFrame, hx]

/-- A frame that comes while a slot is occupied is dropped (R146 step 3, R147). -/
theorem judge_occupied {c : Carried} (hc : c ≠ .nothing) (ht : h.takesFrame = false) :
    h.judge c = h.drop ∧ h.takesGood c = false := by
  cases c with
  | nothing => exact absurd rfl hc
  | malformed kind sequence => simp [judge, takesGood, ht]
  | frame f => simp [judge, takesGood, ht]

theorem judge_malformed (ht : h.takesFrame = true) (kind sequence : Byte) :
    h.judge (.malformed kind sequence) = h.linkError (portReply kind sequence .frameError) := by
  simp [judge, ht]

theorem judge_bad (ht : h.takesFrame = true) (hg : f.good = false) :
    h.judge (.frame f) = h.linkError (portReply f.kind f.sequence .crcError) := by
  simp [judge, ht, hg]

theorem judge_good (ht : h.takesFrame = true) (hg : f.good = true) :
    h.judge (.frame f) = h.takeGood f ∧ h.takesGood (.frame f) = true := by
  simp [judge, takesGood, ht, hg]

/-- The frame remembered is answered by the copy (R152). -/
theorem takeGood_remembered (hm : h.memory = some f.remembered) : h.takeGood f = h.reoffer := by
  simp [takeGood, remembers, hm]

/-- A REPEAT of length 0 is answered by the copy, or NO_REPLY (R153). -/
theorem takeGood_repeat (hm : h.memory ≠ some f.remembered) (hk : f.kind = 5) (hp : f.payload = []) :
    h.takeGood f = h.answerRepeat f := by
  simp [takeGood, remembers, hm, (kindOf_repeat_iff _).mpr hk, hp]

/-- Any other frame is executed (R150). -/
theorem takeGood_other (hm : h.memory ≠ some f.remembered) (hk : ¬(f.kind = 5 ∧ f.payload = [])) :
    h.takeGood f = h.execute f := by
  rw [← kindOf_repeat_iff, ← List.length_eq_zero_iff] at hk
  rw [takeGood, if_neg (by simpa [remembers] using hm), if_neg hk]

theorem answerRepeat_copy (hl : h.lastReply ≠ none) : h.answerRepeat f = h.reoffer := by
  obtain ⟨r, hr⟩ := Option.ne_none_iff_exists'.mp hl
  simp [answerRepeat, hr]

theorem answerRepeat_none (hl : h.lastReply = none) :
    h.answerRepeat f =
      { h with
        reply := some (portReply f.kind f.sequence .noReply)
        lastReply := some (portReply f.kind f.sequence .noReply) } := by
  simp [answerRepeat, hl]

end HostPort

/-! ### The release by what it does to its port -/

section release

variable {s : State} {t : Nat} {p : Port} {sdi : List Bool} {sel : Selection} {x : HostPort}

/-- A release that takes no good frame writes its port alone. -/
theorem exec_release_port (hr : s.rstnAsserted = false) (hs : (s.portOf p).selection = some sel)
    (hx : ((s.portOf p).settled sel sdi.length).judge (carried sdi) = x)
    (hg : ((s.portOf p).settled sel sdi.length).takesGood (carried sdi) = false) :
    exec (.selectRelease t p sdi) s = .next { s with ports := s.ports.set p x.endSelection } := by
  change Host.Outcome.next (s.releaseSelect p sdi t) = _
  rw [State.releaseSelect_eq sdi t hr hs, hx, hg]
  rfl

/-- A release that takes a good frame restarts the lease too (R131). -/
theorem exec_release_good (hr : s.rstnAsserted = false) (hs : (s.portOf p).selection = some sel)
    {f : Frame} (hc : carried sdi = .frame f) (hg : f.good = true)
    (ht : ((s.portOf p).settled sel sdi.length).takesFrame = true)
    (hx : ((s.portOf p).settled sel sdi.length).takeGood f = x) :
    exec (.selectRelease t p sdi) s =
      .next
        { s with
          ports := s.ports.set p x.endSelection
          sessions := s.leaseRestarted p t } := by
  obtain ⟨hj, hgood⟩ := HostPort.judge_good ht hg
  change Host.Outcome.next (s.releaseSelect p sdi t) = _
  rw [State.releaseSelect_eq sdi t hr hs, hc, hj, hx, hgood]
  rfl

end release

end Sys2Proof.Machine
end

section
/-! The statements about the release of a selection (O55, O56). -/
-- In sequence, as the sections above.
set_option Elab.async false

namespace Sys2Proof
open Machine

/-- Settles O55, by what step 3 of R146 does with no frame and with one that finds a slot occupied. -/
theorem releaseSettlesTheSelection : Obligations.ReleaseSettlesTheSelection := by
  unfold Obligations.ReleaseSettlesTheSelection
  refine ⟨fun s t p sdi hs => ?_, fun s t p sdi sel hr hs => ?_, fun s t p sdi sel hr hs => ?_⟩
  · exact congrArg Host.Outcome.next (State.releaseSelect_void sdi t hs)
  · exact congrArg Host.Outcome.next (State.releaseSelect_rstn sdi t hr hs)
  · refine ⟨fun hc => ?_, fun hc ho => ?_⟩
    · exact exec_release_port hr hs (by rw [hc]; rfl) (by rw [hc]; rfl)
    · obtain ⟨hj, hg⟩ := HostPort.judge_occupied hc (HostPort.takesFrame_of_occupied ho)
      exact exec_release_port hr hs hj hg

/-- Settles O56, by the cases of R149 at a port with both slots EMPTY. -/
theorem frameTakenByCase : Obligations.FrameTakenByCase := by
  unfold Obligations.FrameTakenByCase
  intro s t p sdi sel hr hs h error hq hp
  have ht : ((s.portOf p).settled sel sdi.length).takesFrame = true := HostPort.takesFrame_of_empty hq hp
  refine ⟨fun kind sequence hc => ?_, fun f hc => ⟨fun hg => ?_, fun hg hm => ?_, ?_, fun hg hm hk => ?_⟩⟩
  · exact exec_release_port hr hs (by rw [hc, HostPort.judge_malformed ht]) (by rw [hc]; rfl)
  · exact exec_release_port hr hs (by rw [hc, HostPort.judge_bad ht hg])
      (by rw [hc]; simp [HostPort.takesGood, hg])
  · exact exec_release_good hr hs hc hg ht (HostPort.takeGood_remembered hm)
  · intro hg hm hk hl
    have hrep := HostPort.takeGood_repeat (h := (s.portOf p).settled sel sdi.length) hm hk hl
    refine ⟨fun hcopy => ?_, fun hcopy => ?_⟩
    · exact exec_release_good hr hs hc hg ht (hrep.trans (HostPort.answerRepeat_copy hcopy))
    · have hx := hrep.trans (HostPort.answerRepeat_none hcopy)
      rw [hk] at hx
      exact exec_release_good hr hs hc hg ht hx
  · exact exec_release_good hr hs hc hg ht (HostPort.takeGood_other hm hk)

end Sys2Proof
end

section
/-! SUPPORT. The bits of a selection read as bytes and as a frame (9.2, 9.3). -/
-- In sequence, as the sections above.
set_option Elab.async false

namespace Sys2Proof.Machine

/-! ### Bits and bytes -/

theorem byteOfBits_getLsbD (b : Byte) :
    byteOfBits (b.getLsbD 7) (b.getLsbD 6) (b.getLsbD 5) (b.getLsbD 4) (b.getLsbD 3) (b.getLsbD 2)
      (b.getLsbD 1) (b.getLsbD 0) = b := by
  revert b; decide

theorem length_bitsOfByte (b : Byte) : (bitsOfByte b).length = 8 := rfl

/-- A byte's bits at the front are read as that byte. -/
theorem bytesOfBits_bitsOfByte (b : Byte) (rest : List Bool) :
    bytesOfBits (bitsOfByte b ++ rest) = b :: bytesOfBits rest := by
  simp only [bitsOfByte, List.cons_append, List.nil_append, bytesOfBits, byteOfBits_getLsbD]

/-- Fewer than eight bits are no byte. -/
theorem bytesOfBits_short {l : List Bool} (h : l.length < 8) : bytesOfBits l = [] := by
  unfold bytesOfBits
  split
  · simp only [List.length_cons] at h; omega
  · rfl

theorem bytesOfBits_flatMap (bs : List Byte) (extra : List Bool) :
    bytesOfBits (bs.flatMap bitsOfByte ++ extra) = bs ++ bytesOfBits extra := by
  induction bs with
  | nil => rfl
  | cons b bs ih =>
    rw [List.flatMap_cons, List.append_assoc, bytesOfBits_bitsOfByte, ih, List.cons_append]

/-- A run of bytes cut after some bits keeps its whole bytes. -/
theorem bytesOfBits_take (bs : List Byte) (n : Nat) :
    bytesOfBits ((bs.flatMap bitsOfByte).take n) = bs.take (n / 8) := by
  induction bs generalizing n with
  | nil => rw [List.flatMap_nil, List.take_nil, List.take_nil]; rfl
  | cons b bs ih =>
    by_cases hn : n < 8
    · rw [bytesOfBits_short (by rw [List.length_take]; omega), Nat.div_eq_of_lt hn, List.take_zero]
    · obtain ⟨m, rfl⟩ := Nat.exists_eq_add_of_le (Nat.le_of_not_lt hn)
      have hdiv : (8 + m) / 8 = m / 8 + 1 := by omega
      rw [List.flatMap_cons, ← length_bitsOfByte b, List.take_length_add_append, length_bitsOfByte,
        bytesOfBits_bitsOfByte, ih, hdiv, List.take_succ_cons]

theorem length_flatMap_bitsOfByte (bs : List Byte) : (bs.flatMap bitsOfByte).length = 8 * bs.length := by
  induction bs with
  | nil => rfl
  | cons b bs ih => rw [List.flatMap_cons, List.length_append, length_bitsOfByte, ih, List.length_cons]; omega

/-! ### Frames -/

/-- What follows the header of a frame, whole. -/
theorem frameOf_whole (f : Frame) (extra : List Byte) (hl : f.payload.length ≤ 240) :
    frameOf f.kind f.sequence (u8 f.payload.length) (f.payload ++ (u16 f.crc.toNat ++ extra)) =
      .frame f := by
  have hlen : (u8 f.payload.length).toNat = f.payload.length := toNat_u8 (by omega)
  have hcrc : BitVec.ofNat 16 (be16 (u8 (f.crc.toNat / 256)) (u8 f.crc.toNat)) = f.crc := by
    rw [be16, word_u16 (by omega), BitVec.ofNat_toNat, BitVec.setWidth_eq]
  simp only [frameOf, hlen, if_neg (Nat.not_lt.mpr hl), List.drop_left, List.take_left, u16,
    List.cons_append, hcrc]

/-- Too few bytes after the header make no frame. -/
theorem frameOf_short {kind sequence len : Byte} {rest : List Byte} (h : rest.length < len.toNat + 2) :
    frameOf kind sequence len rest = .malformed kind sequence := by
  unfold frameOf
  split
  · rfl
  · split
    · rename_i hi lo tail hd
      have := congrArg List.length hd
      simp only [List.length_drop, List.length_cons] at this
      omega
    · rfl

namespace Frame

variable {f : Frame}

theorem bytes_eq (f : Frame) :
    f.bytes = f.kind :: f.sequence :: u8 f.payload.length :: (f.payload ++ u16 f.crc.toNat) := rfl

theorem length_bytes (f : Frame) : f.bytes.length = f.payload.length + 5 := by
  simp [bytes_eq, u16]

/-- A whole frame is read back, whatever follows it. -/
theorem carried_bits (hk : f.kind ≠ 0) (hl : f.payload.length ≤ 240) (extra : List Bool) :
    carried (f.bits ++ extra) = .frame f := by
  simp only [carried, bits, bytesOfBits_flatMap, bytes_eq, List.cons_append, List.append_assoc,
    carriedOfBytes, if_neg hk]
  exact frameOf_whole f _ hl

/-- A frame cut after a whole byte or more, and before its end. -/
theorem carriedOfBytes_take (hk : f.kind ≠ 0) (hl : f.payload.length ≤ 240) {m : Nat} (hm : 1 ≤ m)
    (hcut : m < f.bytes.length) :
    carriedOfBytes (f.bytes.take m) = .malformed f.kind (if m < 2 then 0 else f.sequence) := by
  rw [length_bytes] at hcut
  match m, hm with
  | 1, _ => exact if_neg hk
  | 2, _ => exact if_neg hk
  | m + 3, _ =>
    simp only [bytes_eq, List.take_succ_cons, carriedOfBytes, if_neg hk]
    rw [if_neg (by omega)]
    apply frameOf_short
    rw [toNat_u8 (by omega), List.length_take]
    omega

theorem carried_take (hk : f.kind ≠ 0) (hl : f.payload.length ≤ 240) {n : Nat} (h8 : 8 ≤ n)
    (hcut : n < f.bits.length) :
    carried (f.bits.take n) = .malformed f.kind (if n < 16 then 0 else f.sequence) := by
  have hlen : n < 8 * f.bytes.length := length_flatMap_bitsOfByte f.bytes ▸ hcut
  have hbyte : n / 8 < 2 ↔ n < 16 := by omega
  rw [carried, bits, bytesOfBits_take, carriedOfBytes_take hk hl (by omega) (by omega)]
  simp only [hbyte]

end Frame

/-- A length above 240 makes a frame malformed, whatever follows (R144). -/
theorem carried_too_long {kind sequence len : Byte} (hk : kind ≠ 0) (hl : 240 < len.toNat)
    (extra : List Bool) :
    carried (bitsOfByte kind ++ bitsOfByte sequence ++ bitsOfByte len ++ extra) =
      .malformed kind sequence := by
  simp only [carried, List.append_assoc, bytesOfBits_bitsOfByte, carriedOfBytes, if_neg hk, frameOf, if_pos hl]

/-! ### The CRC -/

/-- One step of the register: the bit shifted out against the bit shifted in (R145). -/
theorem crcBit_eq (r : BitVec 16) (x : Bool) :
    crcBit r x = if r.msb = x then r <<< 1 else (r <<< 1) ^^^ 0x8005#16 := by
  unfold crcBit
  cases r.msb <;> cases x <;> rfl

theorem crc16_snoc (l : List Byte) (b : Byte) : crc16 (l ++ [b]) = crcByte (crc16 l) b :=
  List.foldl_append

end Sys2Proof.Machine
end

section
/-! The statement about frames on the link (O57). -/
-- In sequence, as the sections above.
set_option Elab.async false

namespace Sys2Proof
open Machine

/-- Settles O57, by reading the bits back byte by byte, whole and cut. -/
theorem framesReadBack : Obligations.FramesReadBack := by
  unfold Obligations.FramesReadBack
  refine ⟨fun b => rfl, fun f => decide_eq_true_iff, rfl, fun l b => ?_,
    fun f extra hk hl => ⟨Frame.carried_bits hk hl extra, fun n h8 hcut => Frame.carried_take hk hl h8 hcut⟩,
    fun sdi h => ?_, fun extra => ?_, fun kind sequence len extra hk hl => carried_too_long hk hl extra⟩
  · rw [crc16_snoc, crcByte]
    exact congrArg (fun step => (bitsOfByte b).foldl step (crc16 l)) (funext₂ crcBit_eq)
  · rw [carried, bytesOfBits_short h]
    rfl
  · rw [carried, bytesOfBits_bitsOfByte]
    rfl

end Sys2Proof
end

section
/-! SUPPORT. The status byte and what a selection shifts out (9.2, 10.2). -/
-- In sequence, as the sections above.
set_option Elab.async false

namespace Sys2Proof.Machine

/-! ### The bits of a byte -/

theorem bitsOfByte_byteOfBits : ∀ b7 b6 b5 b4 b3 b2 b1 b0 : Bool,
    bitsOfByte (byteOfBits b7 b6 b5 b4 b3 b2 b1 b0) = [b7, b6, b5, b4, b3, b2, b1, b0] := by
  decide

/-- The bits of a byte go out most significant first (9.2). -/
theorem bitsOfByte_getD (b : Byte) {j : Nat} (h : j < 8) :
    (bitsOfByte b).getD j false = b.getLsbD (7 - j) := by
  interval_cases j <;> rfl

theorem State.eventsPending_eq (s : State) (p : Port) :
    s.eventsPending p = ((s.sessionOf p).isOpen && decide ((s.eventsOf p).events ≠ [])) := by
  unfold State.eventsPending State.sessionOpen
  cases (s.eventsOf p).events <;> rfl

/-- The bits of the status byte are the flags, in the order of Table 10-3. -/
theorem State.statusByte_bits (s : State) (p : Port) :
    (s.statusByte p).getLsbD 7 = (s.portOf p).reply.isSome ∧
      (s.statusByte p).getLsbD 6 = (s.sessionOf p).isOpen ∧
      (s.statusByte p).getLsbD 5 = ((s.sessionOf p).isOpen && decide ((s.eventsOf p).events ≠ [])) ∧
      (s.statusByte p).getLsbD 4 =
        ((s.sessionOf p).isOpen &&
          decide ((s.resultsOf p).watermark ≤ (s.resultsOf p).records.length)) ∧
      (s.statusByte p).getLsbD 3 = ((s.sessionOf p).isOpen && (s.resultsOf p).lapsed) ∧
      (s.statusByte p).getLsbD 2 = (s.portOf p).dropped ∧
      (s.statusByte p).getLsbD 1 = (s.sessionOf p).expired ∧
      (s.statusByte p).getLsbD 0 = (s.sessionOf p).resetSeen := by
  have hbits : bitsOfByte (s.statusByte p) =
      [s.replyReady p, s.sessionOpen p, s.eventsPending p, s.atWatermark p, s.lapsedFlag p,
        (s.portOf p).dropped, (s.sessionOf p).expired, (s.sessionOf p).resetSeen] :=
    bitsOfByte_byteOfBits _ _ _ _ _ _ _ _
  rw [s.eventsPending_eq] at hbits
  simp only [bitsOfByte, List.cons.injEq, and_true] at hbits
  exact hbits

/-- The alert line follows three flags of an OPEN session (R125). -/
theorem State.alertAsserted_iff (s : State) (p : Port) :
    s.alertAsserted p = true ↔
      (s.sessionOf p).isOpen = true ∧
        ((s.eventsOf p).events ≠ [] ∨
          (s.resultsOf p).watermark ≤ (s.resultsOf p).records.length ∨
          (s.resultsOf p).lapsed = true) := by
  simp only [State.alertAsserted, State.eventsPending_eq, State.atWatermark, State.lapsedFlag,
    State.sessionOpen]
  cases (s.sessionOf p).isOpen <;> simp [or_assoc]

/-! ### What a selection shifts out -/

section

variable {s u : State} {p : Port} {sel : Selection}

theorem State.shiftedOut_congr (h : u.portOf p = s.portOf p) : u.shiftedOut p = s.shiftedOut p := by
  simp only [State.shiftedOut, h]

theorem State.shiftedOut_void (h : (s.portOf p).selection = none) : s.shiftedOut p = [] := by
  simp only [State.shiftedOut, h]

/-- A selection that is not reply-shown shifts out its status byte alone, whatever the reply slot holds. -/
theorem State.shiftedOut_notShown (hs : (s.portOf p).selection = some sel)
    (hn : sel.replyShown = false) : s.shiftedOut p = [sel.status] := by
  cases hr : (s.portOf p).reply <;> simp [State.shiftedOut, hs, hr, hn]

theorem State.shiftedOut_noReply (hs : (s.portOf p).selection = some sel)
    (hr : (s.portOf p).reply = none) : s.shiftedOut p = [sel.status] := by
  simp only [State.shiftedOut, hs, hr]

theorem State.shiftedOut_shown {r : Reply} (hs : (s.portOf p).selection = some sel)
    (hr : (s.portOf p).reply = some r) (hn : sel.replyShown = true) :
    s.shiftedOut p = sel.status :: r.bytes := by
  simp only [State.shiftedOut, hs, hr, hn, if_true]

/-- The first byte out is the status byte the selection fixed (R141). -/
theorem State.sdoByte_zero (hs : (s.portOf p).selection = some sel) : s.sdoByte p 0 = sel.status := by
  cases hr : (s.portOf p).reply with
  | none => rw [State.sdoByte, State.shiftedOut_noReply hs hr]; rfl
  | some r =>
    cases hn : sel.replyShown with
    | false => rw [State.sdoByte, State.shiftedOut_notShown hs hn]; rfl
    | true => rw [State.sdoByte, State.shiftedOut_shown hs hr hn]; rfl

/-- An assertion of select puts a selection in place with what it fixes (R141). -/
theorem State.assertSelect_fixed (hr : s.rstnAsserted = false) (hs : (s.portOf p).selection = none) :
    exec (.selectAssert p) s =
      .next { s with ports := s.ports.set p { s.portOf p with selection := some (s.fixSelection p) } } := by
  change Host.Outcome.next (s.assertSelect p) = _
  rw [State.assertSelect, if_neg (by simp [hr]), hs]
  rfl

theorem State.assertSelect_rstn (hr : s.rstnAsserted = true) : exec (.selectAssert p) s = .next s := by
  change Host.Outcome.next (s.assertSelect p) = _
  rw [State.assertSelect, if_pos hr]

end

/-- A status byte and a reply frame behind it are laid out as R158 says. -/
theorem Reply.shiftedOut_bytes {r : Reply} {b : Byte} {out : Nat → Byte} (hl : r.payload.length ≤ 240)
    (hout : ∀ k, out k = (b :: r.bytes).getD k 0) : r.ShiftedOut out := by
  have hbody : ∀ k, out (5 + k) = (r.payload ++ u16 (crc16 r.covered).toNat).getD k 0 := fun k => by
    have hbytes : b :: r.bytes =
        [b, r.kind, r.sequence, r.status, u8 r.payload.length] ++
          (r.payload ++ u16 (crc16 r.covered).toNat) := rfl
    rw [hout, hbytes, List.getD_append_right _ _ _ _ (Nat.le_add_right 5 k)]
    exact congrArg (List.getD _ · 0) (Nat.add_sub_cancel_left 5 k)
  have htail : ∀ k, out (5 + r.payload.length + k) = (u16 (crc16 r.covered).toNat).getD k 0 := fun k => by
    rw [Nat.add_assoc, hbody, List.getD_append_right _ _ _ _ (Nat.le_add_right _ k),
      Nat.add_sub_cancel_left]
  refine ⟨hout 1, hout 2, hout 3, ?_, fun k x hx => ?_, ?_, fun k hk => ?_⟩
  · rw [hout]
    exact toNat_u8 (by omega)
  · obtain ⟨hlt, -⟩ := List.getElem?_eq_some_iff.mp hx
    rw [hbody, List.getD_append _ _ _ _ hlt, List.getD_eq_getElem?_getD, hx, Option.getD_some]
  · have hlow := htail 1
    rw [show 5 + r.payload.length + 1 = 6 + r.payload.length by omega] at hlow
    rw [← Nat.add_zero (5 + r.payload.length), htail 0, hlow, hout 4]
    exact word_u16 (by omega)
  · obtain ⟨j, rfl⟩ := Nat.exists_eq_add_of_le hk
    rw [show 7 + r.payload.length + j = 5 + r.payload.length + (j + 2) by omega, htail]
    rfl

/-- No command but a reset and the release changes what a selection under way shifts out (R141). -/
theorem shiftedOut_kept {c : Instr} {s u : State} {p : Port} {sel : Selection} (hx : s.SlotsExclusive)
    (hs : (s.portOf p).selection = some sel)
    (hshown : sel.replyShown = true → (s.portOf p).reply ≠ none)
    (hrel : ∀ t sdi, c ≠ .selectRelease t p sdi) (hpow : c ≠ .powerOn) (hrst : c ≠ .rstn)
    (h : exec c s = .next u) : u.shiftedOut p = s.shiftedOut p := by
  /- A port that executes has no reply to show, so its selection is not reply-shown. -/
  have hexecuting : ∀ f, (s.portOf p).request = some f → sel.replyShown = false := fun f hf =>
    Bool.eq_false_iff.mpr fun ht => hshown ht (hx p (by rw [hf]; rfl))
  have hstep := exec_port h p
  generalize hu : u.portOf p = x at hstep
  cases hstep with
  | same => exact State.shiftedOut_congr hu
  | asserted _ hnone => rw [hs] at hnone; contradiction
  | void t sdi hc => exact absurd hc (hrel t sdi)
  | released t sdi _ hc => exact absurd hc (hrel t sdi)
  | answered f st payload _ hf =>
    rw [State.shiftedOut_notShown hs (hexecuting f hf)]
    exact State.shiftedOut_notShown (by rw [hu]; exact hs) (hexecuting f hf)
  | linkReset t f _ hf =>
    rw [State.shiftedOut_notShown hs (hexecuting f hf)]
    exact State.shiftedOut_notShown (by rw [hu]; exact hs) (hexecuting f hf)
  | reset hc => exact absurd hc (by simp [hpow, hrst])

/-- A reset leaves every port without a selection (R139, R155). -/
theorem exec_reset_selection {c : Instr} {s u : State} (hc : c = .powerOn ∨ c = .rstn)
    (h : exec c s = .next u) (p : Port) : (u.portOf p).selection = none := by
  rcases hc with rfl | rfl <;> injection h with h <;> subst h <;>
    exact congrArg HostPort.selection (PerPort.get_const _ p)

end Sys2Proof.Machine
end

section
/-! The statement about the assertion of select (O54). -/
-- In sequence, as the sections above.
set_option Elab.async false

namespace Sys2Proof
open Machine

/-- Settles O54, by the bits of the status byte, the layout of a reply frame and what a command can do to a
port. -/
theorem selectAssertFixesTheStatus : Obligations.SelectAssertFixesTheStatus := by
  unfold Obligations.SelectAssertFixesTheStatus
  intro s p
  refine ⟨fun k => bitsOfByte_getD _ (Nat.mod_lt k (by decide)), fun hr hs => ?_,
    State.assertSelect_rstn,
    fun c u sel hx hs hshown hrel hpow hrst h => shiftedOut_kept hx hs hshown hrel hpow hrst h,
    fun c u k hc h => ?_, s.alertAsserted_iff p⟩
  · refine ⟨s.statusByte p, _, rfl, State.assertSelect_fixed hr hs, ?_⟩
    generalize hu : { s with ports := _ } = u
    have hport : u.portOf p = { s.portOf p with selection := some (s.fixSelection p) } := by
      subst hu
      exact PerPort.get_set_self _ _ _
    have hsel : (u.portOf p).selection = some (s.fixSelection p) := by rw [hport]
    have hreply : (u.portOf p).reply = (s.portOf p).reply := by rw [hport]
    refine ⟨State.sdoByte_zero hsel, fun hnone k hk => ?_, fun r hsome hl => ?_, s.statusByte_bits p⟩
    · obtain ⟨j, rfl⟩ := Nat.exists_eq_succ_of_ne_zero (Nat.ne_of_gt hk)
      rw [State.sdoByte, State.shiftedOut_noReply hsel (hreply.trans hnone)]
      rfl
    · have hout : u.shiftedOut p = s.statusByte p :: r.bytes :=
        State.shiftedOut_shown hsel (hreply.trans hsome) (congrArg Option.isSome hsome)
      exact Reply.shiftedOut_bytes hl fun k => by rw [State.sdoByte, hout]
  · rw [State.sdoByte, State.shiftedOut_void (exec_reset_selection hc h p)]
    rfl

end Sys2Proof
end

section
/-! SUPPORT. What the fields of a request read as (10.1, 10.5), and which check of R161 a request fails. -/
-- In sequence, as the sections above.
set_option Elab.async false

namespace Sys2Proof.Machine

/-! ### Payloads by their length -/

/-- The first `n` bytes of a payload, written out by their places. -/
theorem payload_eq_append_drop {l : List Byte} {n : Nat} (h : n ≤ l.length) :
    l = (List.range n).map (fun k => l.getD k 0) ++ l.drop n := by
  have htake : (List.range n).map (fun k => l.getD k 0) = l.take n :=
    List.ext_getElem (by simp [h]) fun k hk _ => by
      rw [List.length_map, List.length_range] at hk
      simp [Nat.lt_of_lt_of_le hk h]
  rw [htake, List.take_append_drop]

/-- A payload of `n` bytes, written out by their places. -/
theorem payload_eq {l : List Byte} {n : Nat} (h : l.length = n) :
    l = (List.range n).map fun k => l.getD k 0 := by
  have hl := payload_eq_append_drop (l := l) h.ge
  rwa [List.drop_of_length_le h.le, List.append_nil] at hl

/-! ### Single fields (Table 10-1) -/

section fields

variable {b : Byte}

theorem channelField_iff {c : Channel} : channelField b = some c ↔ b.toNat = c.val := by
  unfold channelField
  split
  · rw [Option.some.injEq, Fin.ext_iff]
  · have := c.isLt
    exact ⟨nofun, fun h => by omega⟩

theorem rangeField_iff {r : Range} : rangeField b = some r ↔ b.toNat = rangeCode r := by
  cases r <;> (revert b; decide)

theorem resolutionField_iff {res : Resolution} :
    resolutionField b = some res ↔ b.toNat = resolutionBits res := by
  cases res <;> (revert b; decide)

theorem holdField_iff {h : Hold} : holdField b = some h ↔ b.toNat = holdCode h := by
  cases h <;> (revert b; decide)

theorem periodField_iff {per : Period} : periodField b = some per ↔ b.toNat = periodRounds per := by
  cases per <;> (revert b; decide)

theorem boolField_iff {x : Bool} : boolField b = some x ↔ b.toNat = if x then 1 else 0 := by
  cases x <;> (revert b; decide)

theorem deliveryField_iff {d : Delivery} :
    deliveryField b = some d ↔ b.toNat = if d = .tableOnly then 1 else 0 := by
  cases d <;> (revert b; decide)

theorem triggerField_iff {tr : Trigger} : triggerField b = some tr ↔ b.toNat = triggerCode tr := by
  cases tr with
  | immediate => revert b; decide
  | line x e => cases x <;> cases e <;> (revert b; decide)

end fields

theorem boundedField_iff {lo hi n m : Nat} : boundedField lo hi n = some m ↔ n = m ∧ lo ≤ m ∧ m ≤ hi :=
  ⟨fun h => ⟨(boundedField_some h).1.symm, (boundedField_some h).2⟩,
    fun ⟨hm, hb⟩ => by rw [boundedField, hm, if_pos hb]⟩

theorem keepIf_iff {α : Type} {ok : α → Bool} {x y : α} : keepIf ok x = some y ↔ ok x = true ∧ x = y := by
  unfold keepIf
  cases ok x <;> simp

/-- A code field is the two's-complement number at its place (R157). -/
theorem codeField_eq {l : List Byte} {k : Nat} {hi lo : Byte} (hhi : l.getD k 0 = hi)
    (hlo : l.getD (k + 1) 0 = lo) : codeField hi lo = codeAt l k := by
  have hword : wordAt l k = be16 hi lo := by rw [wordAt, byteAt, byteAt, hhi, hlo, be16]
  have hlt : be16 hi lo < 65536 := by
    have := hi.isLt
    have := lo.isLt
    unfold be16
    omega
  rw [codeAt, hword, codeField, BitVec.toInt_eq_toNat_cond, BitVec.toNat_ofNat,
    Nat.mod_eq_of_lt (by omega)]
  split <;> split <;> omega

/-! ### Payloads of plain numbers (Table 10-7) -/

theorem readNothing_iff (l : List Byte) : readNothing l = some () ↔ l = [] := by
  cases l <;> simp [readNothing]

theorem readTag_iff (l : List Byte) (tag : Tag) : readTag l = some tag ↔ l = [tag] := by
  unfold readTag
  split
  · simp
  · rename_i hne
    exact ⟨nofun, fun h => (hne _ h).elim⟩

theorem readChannel_iff (l : List Byte) (c : Channel) :
    readChannel l = some c ↔ l.length = 1 ∧ byteAt l 0 = c.val := by
  unfold readChannel
  split
  · exact channelField_iff.trans (and_iff_right rfl).symm
  · rename_i hne
    exact ⟨nofun, fun h => (hne _ (payload_eq h.1)).elim⟩

theorem readPace_iff (l : List Byte) (n : Nat) :
    readPace l = some n ↔ l.length = 2 ∧ wordAt l 0 = n ∧ 20 ≤ n ∧ n ≤ 65535 := by
  unfold readPace
  split
  · exact boundedField_iff.trans (and_iff_right rfl).symm
  · rename_i hne
    exact ⟨nofun, fun h => (hne _ _ (payload_eq h.1)).elim⟩

theorem readUpTo32_iff (l : List Byte) (n : Nat) :
    readUpTo32 l = some n ↔ l.length = 1 ∧ byteAt l 0 = n ∧ 1 ≤ n ∧ n ≤ 32 := by
  unfold readUpTo32
  split
  · exact boundedField_iff.trans (and_iff_right rfl).symm
  · rename_i hne
    exact ⟨nofun, fun h => (hne _ (payload_eq h.1)).elim⟩

theorem readUpTo8_iff (l : List Byte) (n : Nat) :
    readUpTo8 l = some n ↔ l.length = 1 ∧ byteAt l 0 = n ∧ 1 ≤ n ∧ n ≤ 8 := by
  unfold readUpTo8
  split
  · exact boundedField_iff.trans (and_iff_right rfl).symm
  · rename_i hne
    exact ⟨nofun, fun h => (hne _ (payload_eq h.1)).elim⟩

theorem readMask_iff (l : List Byte) (mask : BitVec 16) :
    readMask l = some mask ↔ l.length = 2 ∧ wordAt l 0 = mask.toNat := by
  unfold readMask
  split
  · rename_i m1 m0
    have hlt : be16 m1 m0 < 65536 := by
      have := m1.isLt
      have := m0.isLt
      unfold be16
      omega
    rw [Option.some.injEq, ← BitVec.toNat_inj, BitVec.toNat_ofNat, Nat.mod_eq_of_lt hlt]
    exact (and_iff_right rfl).symm
  · rename_i hne
    exact ⟨nofun, fun h => (hne _ _ (payload_eq h.1)).elim⟩

theorem readOpen_iff (l : List Byte) (rq : OpenRequest) : readOpen l = some rq ↔ rq.LaidOut l := by
  unfold readOpen
  split
  · simp only [bind, Option.bind_eq_some_iff, boundedField_iff, pure, Option.some.injEq]
    constructor
    · rintro ⟨pace, ⟨hp, hplo, hphi⟩, lease, ⟨hl, hllo, hlhi⟩, w, ⟨hw, -, hwhi⟩, rfl⟩
      exact ⟨rfl, hp, hplo, hphi, hl, hllo, hlhi, hw, hwhi⟩
    · rintro ⟨-, hp, hplo, hphi, hl, hllo, hlhi, hw, hwhi⟩
      exact ⟨_, ⟨hp, hplo, hphi⟩, _, ⟨hl, hllo, hlhi⟩, _, ⟨hw, Nat.zero_le _, hwhi⟩, rfl⟩
  · rename_i hne
    exact ⟨nofun, fun h => (hne _ _ _ _ _ (payload_eq h.1)).elim⟩

/-! ### READ_NOW (Table 10-9) -/

theorem readReadNow_iff (l : List Byte) (rq : ReadNowRequest) :
    readReadNow l = some rq ↔ rq.LaidOut l := by
  unfold readReadNow
  split
  · simp only [bind, Option.bind_eq_some_iff, channelField_iff, rangeField_iff, resolutionField_iff,
      holdField_iff, pure, Option.some.injEq]
    constructor
    · rintro ⟨c, hc, r, hr, res, hres, h, hh, rfl⟩
      exact ⟨rfl, hc, hr, hres, hh⟩
    · rintro ⟨-, hc, hr, hres, hh⟩
      exact ⟨_, hc, _, hr, _, hres, _, hh, rfl⟩
  · rename_i hne
    exact ⟨nofun, fun h => (hne _ _ _ _ (payload_eq h.1)).elim⟩

/-! ### CLAIM (Table 10-8, R15) -/

theorem ClaimTerms.valid_iff (t : ClaimTerms) : t.valid = true ↔ t.Accepted := by
  have hprio : (!t.priority || decide (t.period = .p1)) = true ↔ (t.priority = true → t.period = .p1) := by
    cases t.priority <;> simp
  rw [ClaimTerms.valid, Bool.and_eq_true, hprio, ClaimTerms.Accepted]
  cases t.window with
  | none => simp
  | some w =>
    simp only [Window.valid_iff, Option.some.injEq, forall_eq', Option.isSome_iff_ne_none, or_imp,
      forall_and, and_assoc]

/-- The bits of the window flags as the halves of their number. -/
theorem windowFlags_bits (b : Byte) :
    (b.getLsbD 0 = true ↔ b.toNat % 2 = 1) ∧ (b.getLsbD 1 = true ↔ b.toNat / 2 % 2 = 1) ∧
      (b.getLsbD 2 = true ↔ b.toNat / 4 % 2 = 1) := by
  revert b; decide

theorem windowField_eq (c r res h per prio del flags l1 l0 u1 u0 confirm : Byte) :
    windowField flags l1 l0 u1 u0 confirm =
      windowAt [c, r, res, h, per, prio, del, flags, l1, l0, u1, u0, confirm] := by
  generalize hl : [c, r, res, h, per, prio, del, flags, l1, l0, u1, u0, confirm] = l
  have hflags : byteAt l 7 = flags.toNat := by subst hl; rfl
  have hconfirm : byteAt l 12 = confirm.toNat := by subst hl; rfl
  have hlower : codeField l1 l0 = codeAt l 8 := codeField_eq (by subst hl; rfl) (by subst hl; rfl)
  have hupper : codeField u1 u0 = codeAt l 10 := codeField_eq (by subst hl; rfl) (by subst hl; rfl)
  obtain ⟨h0, h1, h2⟩ := windowFlags_bits flags
  simp only [windowField, boundField, windowAt, hflags, hconfirm, hlower, hupper, h0, h1, h2]

theorem readClaim_iff (l : List Byte) (rq : ClaimRequest) : readClaim l = some rq ↔ rq.LaidOut l := by
  unfold readClaim
  split
  · rename_i c r res h per prio del flags l1 l0 u1 u0 confirm
    simp only [bind, Option.bind_eq_some_iff, channelField_iff, rangeField_iff, resolutionField_iff,
      holdField_iff, periodField_iff, boolField_iff, deliveryField_iff, keepIf_iff, ClaimTerms.valid_iff,
      windowField_eq c r res h per prio del flags l1 l0 u1 u0 confirm, pure, Option.some.injEq]
    constructor
    · rintro ⟨_, hc, _, hr, _, hres, _, hh, _, hper, _, hprio, _, hdel, _, ⟨hacc, rfl⟩, rfl⟩
      exact ⟨rfl, hc, hr, hres, hh, hper, hprio, hdel, rfl, hacc⟩
    · obtain ⟨_, _, _, _, _, _, _, _⟩ := rq
      rintro ⟨-, hc, hr, hres, hh, hper, hprio, hdel, hwin, hacc⟩
      cases hwin
      exact ⟨_, hc, _, hr, _, hres, _, hh, _, hper, _, hprio, _, hdel, _, ⟨hacc, rfl⟩, rfl⟩
  · rename_i hne
    exact ⟨nofun, fun h => (hne _ _ _ _ _ _ _ _ _ _ _ _ _ (payload_eq h.1)).elim⟩

/-! ### CAPTURE (Table 10-9, R78, R162) -/

theorem distinctChannels_iff (l : List CaptureItem) :
    distinctChannels l = true ↔ (l.map (·.channel)).Nodup := by
  induction l with
  | nil => simp [distinctChannels]
  | cons a l ih =>
    simp only [distinctChannels, Bool.and_eq_true, List.all_eq_true, bne_iff_ne, ih, List.map_cons,
      List.nodup_cons, List.mem_map, not_exists, not_and]

theorem armTimeoutField_iff {tr : Trigger} {n : Nat} {arm : Option Nat} :
    armTimeoutField tr n = some arm ↔
      (tr = .immediate → arm = none) ∧ (tr ≠ .immediate → arm = some n ∧ 1 ≤ n ∧ n ≤ 10000) := by
  cases tr with
  | immediate => simp [armTimeoutField, eq_comm]
  | line x e =>
    simp only [armTimeoutField, Option.map_eq_some_iff, boundedField_iff]
    constructor
    · rintro ⟨m, ⟨rfl, hb⟩, rfl⟩
      exact ⟨nofun, fun _ => ⟨rfl, hb⟩⟩
    · rintro ⟨-, h⟩
      obtain ⟨rfl, hb⟩ := h nofun
      exact ⟨n, ⟨rfl, hb⟩, rfl⟩

/-- The items of a CAPTURE are its byte pairs, in order. -/
theorem readItems_iff (l : List Byte) (items : List CaptureItem) :
    readItems l = some items ↔
      l.length = 2 * items.length ∧
        ∀ (k : Nat) it, items[k]? = some it →
          byteAt l (2 * k) = it.channel.val ∧ byteAt l (2 * k + 1) = rangeCode it.range := by
  induction l using readItems.induct generalizing items with
  | case1 =>
    cases items <;> simp [readItems]
  | case2 b =>
    refine ⟨nofun, fun ⟨h, _⟩ => ?_⟩
    rw [List.length_singleton] at h
    omega
  | case3 c r rest ih =>
    simp only [readItems, bind, Option.bind_eq_some_iff, channelField_iff, rangeField_iff, ih, pure,
      Option.some.injEq]
    constructor
    · rintro ⟨channel, hc, range, hr, tail, ⟨hlen, htail⟩, rfl⟩
      refine ⟨by simp only [List.length_cons, hlen]; omega, fun k it hk => ?_⟩
      cases k with
      | zero => cases hk; exact ⟨hc, hr⟩
      | succ k => exact htail k it hk
    · rintro ⟨hlen, hitems⟩
      cases items with
      | nil => cases hlen
      | cons it tail =>
        obtain ⟨hc, hr⟩ := hitems 0 it rfl
        simp only [List.length_cons] at hlen
        exact ⟨_, hc, _, hr, tail, ⟨by omega, fun k => hitems (k + 1)⟩, rfl⟩

theorem readCapture_iff (l : List Byte) (rq : CaptureRequest) :
    readCapture l = some rq ↔ rq.LaidOut l := by
  unfold readCapture
  split
  · rename_i count res trig t1 t0 rest
    /- The item bytes are those behind the five of the head. -/
    have hshift : ∀ k, byteAt (count :: res :: trig :: t1 :: t0 :: rest) (5 + k) = byteAt rest k :=
      fun k => byteAt_append_right [count, res, trig, t1, t0] rest k
    have hshift' : ∀ k, byteAt (count :: res :: trig :: t1 :: t0 :: rest) (6 + 2 * k) =
        byteAt rest (2 * k + 1) := fun k => by
      rw [← hshift, show 5 + (2 * k + 1) = 6 + 2 * k by omega]
    simp only [bind, Option.bind_eq_some_iff, boundedField_iff, resolutionField_iff, triggerField_iff,
      armTimeoutField_iff, readItems_iff, keepIf_iff, distinctChannels_iff, beq_iff_eq, pure,
      Option.some.injEq, CaptureRequest.LaidOut, hshift, hshift']
    constructor
    · rintro ⟨n, ⟨hn, hlo, hhi⟩, _, hres, _, htr, _, ⟨himm, hline⟩, items, ⟨hlen, hitems⟩, _, ⟨hd, rfl⟩, _,
        ⟨rfl, rfl⟩, rfl⟩
      exact ⟨by simp only [List.length_cons, hlen]; omega, hn, hlo, hhi, hres, htr, himm, hline, hitems, hd⟩
    · rintro ⟨hlen, hn, hlo, hhi, hres, htr, himm, hline, hitems, hd⟩
      simp only [List.length_cons] at hlen
      exact ⟨_, ⟨hn, hlo, hhi⟩, _, hres, _, htr, _, ⟨himm, hline⟩, _, ⟨by omega, hitems⟩, _, ⟨hd, rfl⟩, _,
        ⟨rfl, rfl⟩, rfl⟩
  · rename_i hne
    exact ⟨nofun, fun h =>
      (hne _ _ _ _ _ _ (payload_eq_append_drop (n := 5) (by rw [h.1]; omega))).elim⟩

/-! ### The common checks (R161) -/

theorem length_beq_iff {l : List Byte} {n : Nat} : (l.length == n) = true ↔ some n = some l.length := by
  rw [beq_iff_eq, Option.some.injEq, eq_comm]

theorem lengthFits_iff (k : Kind) (l : List Byte) :
    lengthFits k l = true ↔ tableLength k l = some l.length := by
  cases k
  case repeatKind => exact ⟨nofun, nofun⟩
  case capture =>
    cases l with
    | nil => exact ⟨nofun, nofun⟩
    | cons c rest =>
      simp only [lengthFits, tableLength, Bool.and_eq_true, decide_eq_true_eq, length_beq_iff]
      exact and_iff_right_of_imp fun h => Option.some.inj h ▸ Nat.le_add_right 5 _
  all_goals exact length_beq_iff

/-- A request is served as its kind: read by a reader of that kind's fields. -/
theorem exec_request {c : Instr} {p : Port} {k : Kind} (hc : requestOf c = some (p, k)) (s : State) :
    ∃ (α : Type) (read : List Byte → Option α) (owner : State → α → Answer),
      exec c s = .next (s.serve p k read owner) ∧ ∀ l, (read l).isSome = fieldsValid k l := by
  cases c <;> cases hc <;> exact ⟨_, _, _, rfl, fun _ => rfl⟩

section checks

variable {c : Instr} {s : State} {p : Port} {k : Kind} {f : Frame}

/-- A request that fails a common check before the fields. -/
theorem exec_request_common {st : Status} (hc : requestOf c = some (p, k))
    (hf : (s.portOf p).request = some f) (hk : kindOf f.kind = some k)
    (hr : s.commonRefusal p k f = some st) :
    exec c s = .next { s with ports := s.answered p f st.code [] } := by
  obtain ⟨α, read, owner, hexec, -⟩ := exec_request hc s
  rw [hexec, State.serve_common hf hk hr]

/-- A request whose fields do not read. -/
theorem exec_request_badField (hc : requestOf c = some (p, k)) (hf : (s.portOf p).request = some f)
    (hk : kindOf f.kind = some k) (hr : s.commonRefusal p k f = none)
    (hv : fieldsValid k f.payload = false) :
    exec c s = .next { s with ports := s.answered p f 6 [] } := by
  obtain ⟨α, read, owner, hexec, hread⟩ := exec_request hc s
  have hnone : read f.payload = none := by
    rw [← Option.not_isSome_iff_eq_none, hread, hv]
    exact Bool.false_ne_true
  rw [hexec, State.serve_badField hf hk hr hnone]

theorem commonRefusal_noSession (hn : k.needsSession = true) (ho : s.sessionOpen p = false) :
    s.commonRefusal p k f = some .noSession := by
  simp [State.commonRefusal, hn, ho]

theorem commonRefusal_badLength (hn : k.needsSession = true → s.sessionOpen p = true)
    (hl : lengthFits k f.payload = false) : s.commonRefusal p k f = some .badLength := by
  cases h : k.needsSession with
  | false => simp [State.commonRefusal, h, hl]
  | true => simp [State.commonRefusal, hn h, hl]

theorem commonRefusal_none (hn : k.needsSession = true → s.sessionOpen p = true)
    (hl : lengthFits k f.payload = true) : s.commonRefusal p k f = none := by
  cases h : k.needsSession with
  | false => simp [State.commonRefusal, h, hl]
  | true => simp [State.commonRefusal, hn h, hl]

theorem exec_unknownKind (hf : (s.portOf p).request = some f) (hk : kindOf f.kind = none) :
    exec (.unknownKind p) s = .next { s with ports := s.answered p f 4 [] } := by
  change Host.Outcome.next (s.answerUnknown p) = _
  simp only [State.answerUnknown, hf, hk]
  exact congrArg Host.Outcome.next (State.makeReady_answered s .unknownKind [] rfl)

end checks

end Sys2Proof.Machine
end

section
/-! The statement about the common checks (O59). -/
-- In sequence, as the sections above.
set_option Elab.async false

namespace Sys2Proof
open Machine

/-- Settles O59, by the table of each field and the order of the checks. -/
theorem commonChecksInOrder : Obligations.CommonChecksInOrder := by
  unfold Obligations.CommonChecksInOrder
  refine ⟨kindOf_eq_lookup, fun k => by cases k <;> decide, rfl, rfl, rfl, rfl, rfl, rfl,
    fun n => ⟨BitVec.toNat_ofNat n 8, rfl⟩, lengthFits_iff, readOpen_iff, readClaim_iff, readReadNow_iff,
    readCapture_iff, readPace_iff, readChannel_iff, readTag_iff, readUpTo32_iff, readUpTo8_iff, readMask_iff,
    readNothing_iff, fun s p f hf hk => exec_unknownKind hf hk, fun s p f hf hk => ?_,
    fun c s p k f hc hf hk => ⟨fun hn ho => ?_, fun hn hl => ?_, fun hn hl hv => ?_⟩⟩
  · exact exec_request_common (c := .repeatBadLength p) rfl hf hk (commonRefusal_badLength nofun rfl)
  · exact exec_request_common hc hf hk (commonRefusal_noSession hn ho)
  · have hshort : lengthFits k f.payload = false := by rwa [ne_eq, ← lengthFits_iff, Bool.not_eq_true] at hl
    exact exec_request_common hc hf hk (commonRefusal_badLength hn hshort)
  · exact exec_request_badField hc hf hk (commonRefusal_none hn ((lengthFits_iff _ _).mpr hl)) hv

end Sys2Proof
end
